-- ==== Sys2Proof/Word.lean ====
section
/-! DEFINITION. The types of the rules (00_scope.md R5, R6, R8): bytes, addresses, values, lengths, and the form of the
two opaque parameters, which Config.lean names. A length (`Len`) is a `Nat`: rule R5 allows unbounded naturals for any
`LEN_W >= 13` (decision D13; log entry 4). -/

namespace Sys2Proof

/-- `Byte`: 8 bits, bit 7 the most significant (R6, R8). -/
abbrev Byte := BitVec 8

/-- `Bytes`: a finite ordered sequence; index 0 is the first byte handed to the transport (R6, R8). -/
abbrev Bytes := List Byte

/-- `Chip`: a 7-bit chip address (R5, R8). -/
abbrev Chip := BitVec 7

/-- `Addr`: a 32-bit data address, sub-address, offset or firmware address (R5, R8). -/
abbrev Addr := BitVec 32

/-- `Value`: a 16-bit DDC command value (R5, R8). -/
abbrev Value := BitVec 16

/-- What the model needs of a type the spec leaves OPEN: the type itself, that two values of it are equal or not (so that
states can be compared), how a value is written, and a family of values, of which nothing says that two differ. The
defaults only show that such a thing exists; the model's open types are constants without a body (Config.lean). -/
structure OpenType where
  Carrier : Type := Unit
  eq      : DecidableEq Carrier := by exact (inferInstance : DecidableEq Unit)
  display : Carrier → Std.Format := by exact (fun _ => Std.Format.nil)
  sample  : Nat → Carrier := by exact (fun _ => ())
  deriving Inhabited

/-- A value of an OPEN type. -/
structure Token (T : OpenType) [DecidableEq T.Carrier] [Repr T.Carrier] where
  token : T.Carrier
  deriving DecidableEq, Repr

/-- How a value of an OPEN type is written. -/
@[reducible] def OpenType.repr (T : OpenType) : Repr T.Carrier := ⟨fun x _ => T.display x⟩

/-- The values of an OPEN type, with its own equality and its own way to be written. -/
abbrev OpenType.Value (T : OpenType) : Type := @Token T T.eq T.repr

/-- The values of the family `sample`. -/
def OpenType.value (T : OpenType) (n : Nat) : T.Value := @Token.mk T T.eq T.repr (T.sample n)

end Sys2Proof
end

