-- ==== Sys2Proof/Config.lean ====
section
/-! DEFINITION. The hardwired constants of 10_state.md R11 and the parameters 00_scope.md R5 fixes. They are read-only,
have no address and hold their value from reset on. What the environment decides (the channel's answers) is no constant:
it is the TRSP port of State. The two OPEN parameters of R5 are named arguments of the model: constants without a body. -/

namespace Sys2Proof.Config

/-- `Handle` (R5, OPEN): the opaque type of a Service Handle. No body: nothing in the model, and no proof about it, knows
which type it is (N17). DESIGN CHOICE (log entry 3): it has a value, and its values are equal or not. -/
opaque handleType : OpenType

/-- `Code` (R5, OPEN): the opaque type of the transport's raw status code. No body, as `handleType` (log entry 3). -/
opaque codeType : OpenType

end Sys2Proof.Config

namespace Sys2Proof

/-- `Handle`: a Service Handle, an opaque reference (R5, R8, R21). -/
abbrev Handle := Config.handleType.Value

/-- `Code`: a raw status code of the transport, opaque (R5, R8, R122). -/
abbrev Code := Config.codeType.Value

end Sys2Proof

namespace Sys2Proof.Config

/-- Some handles; nothing says which, nor that two of them differ (log entry 3). -/
def someHandle (n : Nat) : Handle := handleType.value n

/-- Some status codes, as `someHandle`. -/
def someCode (n : Nat) : Code := codeType.value n

/-- `DDC_CHIP_ADDR` (R11): the chip address of the codec and of the block operations. -/
def ddcChipAddr : Chip := 0x37#7

/-- `DDC_DATA_ADDR` (R11): the data address of a DDC command write. -/
def ddcDataAddr : Addr := 0x51#32

/-- `CHK_SEED` (R11, R83): `(0x37 << 1) XOR 0x51`, taken at 8 bits. -/
def chkSeed : Byte := (ddcChipAddr.setWidth 8 <<< 1) ^^^ ddcDataAddr.setWidth 8

/-- `HDR_FLAG` (R11, R56). -/
def hdrFlag : Byte := 0x80#8

/-- `MAX_BLOCK` (R11, R100): the largest firmware block, in bytes. -/
def maxBlock : Nat := 4096

/-- `RESP_LEN_DEFAULT` (R11, R66): the length `readResponse(handle)` stands for. The block sees only the number. -/
def respLenDefault : Nat := 11

/-- `RESP_OFFSET` (R11, R85): the offset of a response read. -/
def respOffset : Addr := 0#32

/-- `PLACEHOLDER` (R5, R58): the checksum position's byte before the checksum is written (the spec's decision D10,
unobservable). -/
def placeholder : Byte := 0x00#8

end Sys2Proof.Config
end

