-- ==== Sys2Proof/Machine/Operands.lean ====
section
/-! DEFINITION. The operand and packet computations of the rules, over plain bytes: the big-endian split, the body,
the frame, the checksum, the size check (20_memory.md R34; 41_ddc_codec.md R81 to R83; 42_firmware_block.md R100). -/

namespace Sys2Proof.Machine

/-- `highByte(v) = v[15:8]` (R34). -/
def highByte (v : Value) : Byte := v.extractLsb' 8 8

/-- `lowByte(v) = v[7:0]` (R34). -/
def lowByte (v : Value) : Byte := v.extractLsb' 0 8

/-- The value two big-endian bytes stand for, `high*256 + low` (R34). -/
def joinValue (hi lo : Byte) : Value := hi ++ lo

/-- `BuildBody` (R81): the command, then the value's two bytes, high first, when there is a value. -/
def buildBody (command : Byte) (value : Option Value) : Bytes :=
  match value with
  | none => [command]
  | some v => [command, highByte v, lowByte v]

/-- The header byte `0x80 | (bodyLength + 1)` (R56). -/
def headerByte (bodyLength : Nat) : Byte := Config.hdrFlag ||| BitVec.ofNat 8 (bodyLength + 1)

/-- `Frame` (R82): header, length byte, body, placeholder. -/
def frame (body : Bytes) : Bytes :=
  [headerByte body.length, BitVec.ofNat 8 body.length] ++ body ++ [Config.placeholder]

/-- XOR-accumulate a byte sequence into `acc`, in index order (R83). -/
def xorAll (acc : Byte) (p : Bytes) : Byte := p.foldl (fun chk b => chk ^^^ b) acc

/-- The final value of `CHK` (R15, R83): the seed XOR every byte but the last. -/
def checksumByte (p : Bytes) : Byte := xorAll Config.chkSeed p.dropLast

/-- `Checksum` (R83): the packet with its last byte replaced by the checksum. -/
def checksum (p : Bytes) : Bytes := p.dropLast ++ [checksumByte p]

/-- The packet SEND_COMMAND transmits: steps 1 to 3 of R80. -/
def packet (command : Byte) (value : Option Value) : Bytes := checksum (frame (buildBody command value))

/-- `SizeOk` (R100): the unsigned comparison with `MAX_BLOCK`. -/
def sizeOk (n : Nat) : Bool := decide (n ≤ Config.maxBlock)

end Sys2Proof.Machine
end

