-- ==== Sys2Proof/Syntax.lean ====
section
/-! DEFINITION. The instructions: one constructor per row of spec/opcode_table.json, with the operands 30_encoding.md
R53 gives the row. -/

namespace Sys2Proof

/-- One constructor per row of the opcode table. A Service Handle argument is `none` when absent (R21, R51:
`handle_present = 0`, the handle's value then means nothing). The seven operations and the reserved selector are
requests (R52); the two packet rows are the packet formats `PKT4` and `PKT6` (R60, R61; log entry 1). -/
inductive Instr where
  /-- `write(handle, chipAddress, dataAddress, payload)`, R71. -/
  | rawWrite (handle : Option Handle) (chip : Chip) (addr : Addr) (payload : Bytes)
  /-- `read(handle, chipAddress, offset, length)`, R72. -/
  | rawRead (handle : Option Handle) (chip : Chip) (addr : Addr) (len : Nat)
  /-- `sendCommand(handle, command, optionalValue)`, R80. -/
  | sendCommand (handle : Option Handle) (command : Byte) (value : Option Value)
  /-- `readResponse(handle, length)`, R85. -/
  | readResponse (handle : Option Handle) (len : Nat)
  /-- `writeBlock(handle, address, data)`, R101. -/
  | writeBlock (handle : Option Handle) (addr : Addr) (payload : Bytes)
  /-- `readBlock(handle, address, length)`, R102. -/
  | readBlock (handle : Option Handle) (addr : Addr) (len : Nat)
  /-- `verifyBlock(handle, address, expectedData)`, R103. -/
  | verifyBlock (handle : Option Handle) (addr : Addr) (expected : Bytes)
  /-- The selector value 7, R63, R125. It has no operand: the handle is not looked at. -/
  | reserved7
  /-- A packet without a value, `82 01 c k`, R60. -/
  | ddcPkt4 (command check : Byte)
  /-- A packet with a value, `84 03 c h l k`, R61. -/
  | ddcPkt6 (command hi lo check : Byte)
  deriving DecidableEq, Repr

end Sys2Proof
end

