-- ==== Sys2Proof/Decode.lean ====
section
/-! DEFINITION. The two encodings (30_encoding.md): the request record `REQ` (R50 to R53), of which only the selector
`op` has codes, and the DDC packet (R54 to R62). The decoder, then the encoder from the same tables, then the opcode
table's own numbering of an instruction's bits. -/

namespace Sys2Proof

/-- Format `REQ` (R51): one request selects one operation and carries all its operands. -/
structure Req where
  op            : BitVec 3
  handlePresent : Bool
  handle        : Handle
  chip          : Chip
  addr          : Addr
  len           : Nat
  command       : Byte
  hasValue      : Bool
  value         : Value
  payload       : Bytes
  deriving DecidableEq, Repr

/-- A request with the given selector and every other field zero, absent or empty; the handle, absent, is some handle. -/
def Req.zero (op : BitVec 3) : Req :=
  { op := op, handlePresent := false, handle := Config.someHandle 0, chip := 0#7, addr := 0#32, len := 0, command := 0#8,
    hasValue := false, value := 0#16, payload := [] }

/-- The Service Handle of a request: the pair of R21 read as an option, so that the handle's value cannot be used when
`handle_present = 0`. -/
def Req.serviceHandle (r : Req) : Option Handle := if r.handlePresent then some r.handle else none

/-- The value of a request: ignored when `has_value = 0` (R51, R63). -/
def Req.optionalValue (r : Req) : Option Value := if r.hasValue then some r.value else none

/-- What a step can fetch: a request record from the REQ port, or the bytes of a packet from the packet buffer. -/
inductive Fetched where
  | request (r : Req)
  | packet (p : Bytes)
  deriving DecidableEq, Repr

/-- Why a byte sequence is no packet of this block (R62, R63). -/
inductive DecodeError where
  /-- The length is neither 4 nor 6. -/
  | packetLength (n : Nat)
  /-- Byte 0 is not the header the length calls for (0x82 or 0x84). -/
  | headerByte (b : Byte)
  /-- Byte 1 is not the body length (0x01 or 0x03). -/
  | lengthByte (b : Byte)
  deriving DecidableEq, Repr

/-- Decode a request (R52, R53): every selector value has a meaning, and a field the operation does not read is
dropped. -/
def decodeRequest (r : Req) : Instr :=
  match r.op.toNat with
  | 0 => .rawWrite r.serviceHandle r.chip r.addr r.payload
  | 1 => .rawRead r.serviceHandle r.chip r.addr r.len
  | 2 => .sendCommand r.serviceHandle r.command r.optionalValue
  | 3 => .readResponse r.serviceHandle r.len
  | 4 => .writeBlock r.serviceHandle r.addr r.payload
  | 5 => .readBlock r.serviceHandle r.addr r.len
  | 6 => .verifyBlock r.serviceHandle r.addr r.payload
  | _ => .reserved7

/-- Decode packet bytes by the patterns of R60 and R61. The check byte is a field: a framed packet that still has its
placeholder decodes too (whether the byte is right is `wellFormed`'s question). -/
def decodePacket (p : Bytes) : Except DecodeError Instr :=
  match p with
  | [b0, b1, c, k] =>
    if b0 = 0x82#8 then
      if b1 = 0x01#8 then .ok (.ddcPkt4 c k) else .error (.lengthByte b1)
    else .error (.headerByte b0)
  | [b0, b1, c, h, l, k] =>
    if b0 = 0x84#8 then
      if b1 = 0x03#8 then .ok (.ddcPkt6 c h l k) else .error (.lengthByte b1)
    else .error (.headerByte b0)
  | q => .error (.packetLength q.length)

/-- The decoder: total, rejecting by name. -/
def decode (f : Fetched) : Except DecodeError Instr :=
  match f with
  | .request r => .ok (decodeRequest r)
  | .packet p => decodePacket p

/-- Put a Service Handle argument into a request. -/
def Req.withHandle (r : Req) (h : Option Handle) : Req :=
  match h with
  | none => { r with handlePresent := false }
  | some x => { r with handlePresent := true, handle := x }

/-- Put an optional value into a request. -/
def Req.withValue (r : Req) (v : Option Value) : Req :=
  match v with
  | none => { r with hasValue := false }
  | some x => { r with hasValue := true, value := x }

/-- The encoder: the request record (R52, R53) or the packet bytes (R60, R61) of an instruction. A field the operation
does not read is written as zero, an absent handle as some handle (log entry 12). -/
def encode (i : Instr) : Fetched :=
  match i with
  | .rawWrite h chip addr payload =>
    .request ({ Req.zero 0#3 with chip := chip, addr := addr, payload := payload }.withHandle h)
  | .rawRead h chip addr len => .request ({ Req.zero 1#3 with chip := chip, addr := addr, len := len }.withHandle h)
  | .sendCommand h c v => .request (({ Req.zero 2#3 with command := c }.withHandle h).withValue v)
  | .readResponse h len => .request ({ Req.zero 3#3 with len := len }.withHandle h)
  | .writeBlock h addr payload => .request ({ Req.zero 4#3 with addr := addr, payload := payload }.withHandle h)
  | .readBlock h addr len => .request ({ Req.zero 5#3 with addr := addr, len := len }.withHandle h)
  | .verifyBlock h addr payload => .request ({ Req.zero 6#3 with addr := addr, payload := payload }.withHandle h)
  | .reserved7 => .request (Req.zero 7#3)
  | .ddcPkt4 c k => .packet [0x82#8, 0x01#8, c, k]
  | .ddcPkt6 c h l k => .packet [0x84#8, 0x03#8, c, h, l, k]

/-- The call `sendCommand(handle, command, optionalValue)`; left out, the value is absent (R66). -/
def callSendCommand (h : Option Handle) (command : Byte) (value : Option Value := none) : Instr :=
  .sendCommand h command value

/-- The call `readResponse(handle, length)`, also `readDDCResponse` (R67); left out, the length is 11 (R66). -/
def callReadResponse (h : Option Handle) (len : Nat := Config.respLenDefault) : Instr := .readResponse h len

/-- The brightness query, `sendCommand(h, 0x10)` (R67). -/
def brightnessQuery (h : Option Handle) : Instr := callSendCommand h 0x10#8

/-- A row of spec/opcode_table.json: how many bits it numbers, and its mask and match over them. -/
structure TableRow where
  mnemonic : String
  nbits    : Nat
  mask     : Nat
  pattern  : Nat
  deriving DecidableEq, Repr

/-- The row of an instruction, as the table has it. -/
def tableRow (i : Instr) : TableRow :=
  match i with
  | .rawWrite _ _ _ _ => ⟨"RAW_WRITE", 3, 7, 0⟩
  | .rawRead _ _ _ _ => ⟨"RAW_READ", 3, 7, 1⟩
  | .sendCommand _ _ _ => ⟨"SEND_COMMAND", 3, 7, 2⟩
  | .readResponse _ _ => ⟨"READ_RESPONSE", 3, 7, 3⟩
  | .writeBlock _ _ _ => ⟨"WRITE_BLOCK", 3, 7, 4⟩
  | .readBlock _ _ _ => ⟨"READ_BLOCK", 3, 7, 5⟩
  | .verifyBlock _ _ _ => ⟨"VERIFY_BLOCK", 3, 7, 6⟩
  | .reserved7 => ⟨"RESERVED_7", 3, 7, 7⟩
  | .ddcPkt4 _ _ => ⟨"DDC_PKT4", 32, 4294901760, 2181103616⟩
  | .ddcPkt6 _ _ _ _ => ⟨"DDC_PKT6", 48, 281470681743360, 145148419768320⟩

/-- The `n` bytes of a packet the table writes as one number: byte 0 is the most significant (its `bit_order`: "byte 0
first, bit 7 of each byte first"). -/
def packetBytesOf (n w : Nat) : Bytes :=
  match n with
  | 0 => []
  | m + 1 => BitVec.ofNat 8 (w / 256 ^ m) :: packetBytesOf m w

/-- The number the table writes a packet as, byte 0 the most significant. -/
def packetNumber (p : Bytes) : Nat := p.foldl (fun acc b => acc * 256 + b.toNat) 0

/-- The bits of an encoded instruction that the opcode table numbers: a request's selector, or a packet's bytes. -/
def tableBits (f : Fetched) : Nat :=
  match f with
  | .request r => r.op.toNat
  | .packet p => packetNumber p

/-- What the opcode table's word stands for (log entry 11): up to one byte, a request whose selector is bits 2 to 0 and
whose other fields, to which the table gives no bits, are zero; 32 or 48 bits, a packet. -/
def fetchedOfTableWord (nbits w : Nat) : Option Fetched :=
  if nbits ≤ 8 then some (.request (Req.zero (BitVec.ofNat 3 w)))
  else if nbits = 32 then some (.packet (packetBytesOf 4 w))
  else if nbits = 48 then some (.packet (packetBytesOf 6 w))
  else none

/-- The instruction the decoder reads from a word numbered as spec/opcode_table.json numbers it. -/
def decodeTableWord (nbits w : Nat) : Option Instr :=
  match fetchedOfTableWord nbits w with
  | none => none
  | some f =>
    match decode f with
    | .ok i => some i
    | .error _ => none

end Sys2Proof
end

