-- ==== Sys2Proof/Machine/State.lean ====
section
/-! DEFINITION. The state of the block (10_state.md): its phase, the request latch, the transient registers of one
operation, the four message ports, and the record of behaviour; the reasons a step can stop; the state after reset. -/

namespace Sys2Proof.Machine

/-- The phase bit (R12). -/
inductive Phase where
  | idle
  | busy
  deriving DecidableEq, Repr

/-- The result kinds of R126. -/
inductive Kind where
  | ok
  | unavailableHandle
  | transportFailure
  | sizePrecondition
  | verifyMismatch
  | illegalRequest
  deriving DecidableEq, Repr

/-- The result record `res`, format `RES` (R17, R64). -/
structure Res where
  ok   : Bool
  kind : Kind
  code : Option Code
  data : Bytes
  deriving DecidableEq, Repr

/-- A transport request, format `TREQ` (R20). -/
structure TReq where
  write   : Bool
  handle  : Handle
  chip    : Chip
  addr    : Addr
  len     : Nat
  payload : Bytes
  deriving DecidableEq, Repr

/-- A transport answer, format `TRSP` (R20). -/
structure TRsp where
  ok   : Bool
  code : Code
  data : Bytes
  deriving DecidableEq, Repr

/-- One `TREQ`/`TRSP` pair (R23). -/
structure Exchange where
  call   : TReq
  answer : TRsp
  deriving DecidableEq, Repr

/-- Everything observable of one operation (R23): its request, its exchanges in order, its result. -/
structure OpRecord where
  request   : Req
  exchanges : List Exchange
  result    : Res
  deriving DecidableEq, Repr

/-- `PKT_LEN`: its values are 4 and 6 (R14). -/
inductive PktLen where
  | four
  | six
  deriving DecidableEq, Repr

/-- The number of bytes of `PKT` in use. -/
def PktLen.toNat (n : PktLen) : Nat :=
  match n with
  | .four => 4
  | .six => 6

/-- Why a step stops with a fault. -/
inductive Fault where
  /-- Raised by `resume`: the phase is BUSY, a `TREQ` is outstanding and no `TRSP` has come. It is R148's "block with no
  enabled step until a `TRSP` arrives" (U5, stuck), not a failure of an operation. Safe: no further step is claimed. -/
  | noTransportAnswer
  deriving DecidableEq, Repr

/-- Why a step is refused. -/
inductive Refusal where
  /-- Raised by `exec`'s arms only: the named instruction has no meaning yet. Safe. -/
  | notModelled (mnemonic : String)
  /-- Raised by `takeAnswer`: the channel answered a read `ok = 1` with a number of bytes other than the length asked
  for. R72: "outside the model"; U4: refuse. Safe. -/
  | answerBreaksContract
  /-- Raised by `step`: the phase is BUSY with no `TREQ` outstanding, and the packet buffer holds no framed packet. No
  run reaches it (log entry 1). Safe. -/
  | undecodablePacket (e : DecodeError)
  /-- Raised by `applyReset`, never by `step`: reset while an operation is in flight. R141, U10: refuse. Safe. -/
  | resetWhileBusy
  deriving DecidableEq, Repr

/-- The state. Every field but the ports' environment side and the record is the spec's; see INVENTORY.md. -/
structure State where
  /-- `phase`, R12. -/
  phase    : Phase
  /-- The request latch `req`, R13. -/
  req      : Req
  /-- The packet buffer `PKT[0..5]`, R14. -/
  pkt      : Vector Byte 6
  /-- `PKT_LEN`, R14. -/
  pktLen   : PktLen
  /-- The checksum accumulator `CHK`, R15. -/
  chk      : Byte
  /-- The read buffer `RBUF`, R16. -/
  rbuf     : Bytes
  /-- The result record `res`, R17. -/
  res      : Res
  /-- Port `REQ`: the requests the host presents, in order; they wait while the block is BUSY (R20, R144). -/
  reqPort  : List Req
  /-- Port `TREQ`: the message emitted and not yet answered (R20). -/
  treq     : Option TReq
  /-- Port `TRSP`: the environment's answers, in order, a free input (R20, R22; log entry 5). -/
  trspPort : List TRsp
  /-- Port `RES`: the results delivered to the host and not yet taken by it, in order (R20; log entry 8). -/
  resPort  : List Res
  /-- The record of behaviour, one entry per finished operation (R23, R24). -/
  trace    : List OpRecord
  deriving DecidableEq, Repr

/-- The state after reset (R24, R140): IDLE, nothing pending on a port, an empty trace. The transient registers, to which
R24 gives no value, hold zeros, the absent handle some handle (DESIGN CHOICE, log entry 2). -/
def State.reset : State :=
  { phase := .idle, req := Req.zero 0#3, pkt := Vector.replicate 6 0#8, pktLen := .four, chk := 0#8, rbuf := [],
    res := { ok := false, kind := .ok, code := none, data := [] }, reqPort := [], treq := none, trspPort := [],
    resPort := [], trace := [] }

end Sys2Proof.Machine
end

