-- ==== Sys2Proof/Machine/Flags.lean ====
section
/-! DEFINITION. The result record, the block's only status flags (10_state.md R17): the codes of `kind`, and how an
operation's `case r of` turns the channel's answer into a result. -/

namespace Sys2Proof.Machine

/-- The codes of `res.kind` (R126). -/
def kindCode (k : Kind) : BitVec 3 :=
  match k with
  | .ok => 0#3
  | .unavailableHandle => 1#3
  | .transportFailure => 2#3
  | .sizePrecondition => 3#3
  | .verifyMismatch => 4#3
  | .illegalRequest => 5#3

/-- The kind a code stands for; 6 and 7 are never produced (R126). -/
def kindOfCode (c : BitVec 3) : Option Kind :=
  match c.toNat with
  | 0 => some .ok
  | 1 => some .unavailableHandle
  | 2 => some .transportFailure
  | 3 => some .sizePrecondition
  | 4 => some .verifyMismatch
  | 5 => some .illegalRequest
  | _ => none

/-- `{ok = 1, kind = OK, code = none, data}`. -/
def successRes (data : Bytes) : Res := { ok := true, kind := .ok, code := none, data := data }

/-- `{ok = 0, kind, code, data = []}` (R120). -/
def failureRes (kind : Kind) (code : Option Code) : Res := { ok := false, kind := kind, code := code, data := [] }

/-- What an operation does with the answer to its one transport call: report it (R71, R80, R101), deliver the bytes
(R72, R85, R102), or compare them (R103). -/
inductive Finish where
  | report
  | deliver
  | compare (expected : Bytes)
  deriving DecidableEq, Repr

/-- The result of an operation whose transport call got the answer `a`. A failing answer's code is carried untouched
and its data discarded (R122). -/
def answerRes (f : Finish) (a : TRsp) : Res :=
  if a.ok then
    match f with
    | .report => successRes []
    | .deliver => successRes a.data
    | .compare expected => if a.data = expected then successRes [] else failureRes .verifyMismatch none
  else failureRes .transportFailure (some a.code)

end Sys2Proof.Machine
end

