-- ==== Sys2Proof/Machine/Ops.lean ====
section
/-! DEFINITION. The operations the meanings share: the register updates, ending an operation (R17, R120), the one
transport call and its answer (R20, R70), the gate (R70). -/

namespace Sys2Proof.Machine

/-- What a step or a meaning answers. -/
abbrev Out := Host.Outcome State Fault Refusal

/-- Accept the oldest request on the REQ port: latch it, go BUSY (R12, R13). -/
def State.accept (r : Req) (rest : List Req) (s : State) : State := { s with phase := .busy, req := r, reqPort := rest }

/-- Write packet bytes into `PKT`, index 0 first; bytes beyond them keep their value (R14). -/
def State.setPkt (p : Bytes) (n : PktLen) (s : State) : State :=
  { s with pkt := Vector.ofFn (fun i : Fin 6 => p.getD i.val s.pkt[i]), pktLen := n }

/-- The bytes `PKT[0 .. PKT_LEN-1]` (R80). -/
def State.pktBytes (s : State) : Bytes := s.pkt.toList.take s.pktLen.toNat

/-- Write `CHK` (R15). -/
def State.setChk (b : Byte) (s : State) : State := { s with chk := b }

/-- Write `RBUF` (R16). -/
def State.setRbuf (data : Bytes) (s : State) : State := { s with rbuf := data }

/-- Take the oldest answer off the TRSP port. -/
def State.dropAnswer (rest : List TRsp) (s : State) : State := { s with trspPort := rest }

/-- Emit a `TREQ` and wait for its answer, BUSY (R12, R20). -/
def State.await (t : TReq) (s : State) : State := { s with phase := .busy, treq := some t }

/-- End the operation: write `res`, deliver it on the RES port, go IDLE, and record what was observable (R12, R17, R23).
No `TREQ` is outstanding any more. -/
def State.complete (xs : List Exchange) (r : Res) (s : State) : State :=
  { s with phase := .idle, treq := none, res := r, resPort := s.resPort ++ [r], trace := s.trace ++ [⟨s.req, xs, r⟩] }

/-- `raise K()` (R120), which stands where a processor's exception entry stands: the result is delivered and the block
is IDLE; nothing is saved and no control is transferred (R128). No transport call was made. There is no return
operation (R129): the next request is accepted as after any other result. -/
def raise (k : Kind) (s : State) : Out := .next (s.complete [] (failureRes k none))

/-- The answer `a` to the transport call `t` arrives, and the operation ends as `f` says. A read answered `ok = 1` with
the wrong number of bytes is outside the model (R72, U4). The bytes of a successful read stand in `RBUF` (R16). -/
def takeAnswer (t : TReq) (f : Finish) (a : TRsp) (s : State) : Out :=
  if t.write then .next (s.complete [⟨t, a⟩] (answerRes f a))
  else if a.ok then
    if a.data.length = t.len then .next ((s.setRbuf a.data).complete [⟨t, a⟩] (answerRes f a))
    else .refused .answerBreaksContract
  else .next (s.complete [⟨t, a⟩] (answerRes f a))

/-- One external channel transfer (`ChanWrite`, `ChanRead`, R7): emit `t`; when the environment's answer is there, take
it; when not, stay BUSY with `t` outstanding until it comes (R12, R148). -/
def callChannel (t : TReq) (f : Finish) (s : State) : Out :=
  match s.trspPort with
  | [] => .next (s.await t)
  | a :: rest => takeAnswer t f a (s.dropAnswer rest)

/-- `GatedWrite` (R70), and the write operations' `case r of`. -/
def gatedWrite (h : Option Handle) (chip : Chip) (daddr : Addr) (bytes : Bytes) (s : State) : Out :=
  match h with
  | none => raise .unavailableHandle s
  | some x =>
    callChannel { write := true, handle := x, chip := chip, addr := daddr, len := bytes.length, payload := bytes } .report s

/-- `GatedRead` (R70), and what the operation does with the bytes read. -/
def gatedRead (h : Option Handle) (chip : Chip) (off : Addr) (n : Nat) (f : Finish) (s : State) : Out :=
  match h with
  | none => raise .unavailableHandle s
  | some x => callChannel { write := false, handle := x, chip := chip, addr := off, len := n, payload := [] } f s

/-- Steps 3 and 4 of R80 on a framed packet: the checksum is accumulated in `CHK` and written into the last byte (R83),
and the packet in `PKT` is transmitted to chip 0x37, data address 0x51 (R86). -/
def transmitFramed (h : Option Handle) (framed : Bytes) (n : PktLen) (s : State) : Out :=
  gatedWrite h Config.ddcChipAddr Config.ddcDataAddr (checksum framed)
    ((s.setPkt (checksum framed) n).setChk (checksumByte framed))

/-- What the latched request makes of the answer to the outstanding `TREQ` `t` (R13): VERIFY_BLOCK compares a read with
its operand, the other reads deliver it, a write is reported. -/
def finishOf (r : Req) (t : TReq) : Finish :=
  if t.write then .report
  else if r.op = 6#3 then .compare r.payload
  else .deliver

/-- The block is BUSY and `t` is outstanding: take the answer, or be stuck until there is one (R148). -/
def resume (t : TReq) (s : State) : Out :=
  match s.trspPort with
  | [] => .fault .noTransportAnswer
  | a :: rest => takeAnswer t (finishOf s.req t) a (s.dropAnswer rest)

/-- A step that fetches nothing: BUSY with a `TREQ` outstanding, its answer is taken (R148); IDLE with no request
presented, the block stays as it is (DESIGN CHOICE, log entry 7). -/
def stepWithoutFetch (s : State) : Out :=
  match s.phase, s.treq with
  | .busy, some t => resume t s
  | _, _ => .next s

end Sys2Proof.Machine
end

