-- ==== Sys2Proof/Machine/DdcCodec.lean ====
section
/-! DEFINITION. Operation family 2, the DDC/CI codec: SEND_COMMAND, READ_RESPONSE (41_ddc_codec.md), and the two packet
rows of the opcode table (30_encoding.md R60, R61). -/

namespace Sys2Proof.Machine

/-- SEND_COMMAND, R80: build the body, frame it, then checksum and transmit. -/
def execSendCommand (h : Option Handle) (command : Byte) (value : Option Value) (s : State) : Out :=
  transmitFramed h (frame (buildBody command value)) (if value.isSome then .six else .four) s

/-- READ_RESPONSE, R85, R88: chip 0x37, offset 0, no size check, nothing parsed. -/
def execReadResponse (h : Option Handle) (len : Nat) (s : State) : Out :=
  gatedRead h Config.ddcChipAddr Config.respOffset len .deliver s

/-- DDC_PKT4, R60, semantics R80: the framed packet of a SEND_COMMAND without a value, for the latched request's handle;
what is left of R80 is steps 3 and 4, so the check byte is computed, whatever stood there (DESIGN CHOICE, log entry 1). -/
def execDdcPkt4 (command check : Byte) (s : State) : Out :=
  transmitFramed s.req.serviceHandle [0x82#8, 0x01#8, command, check] .four s

/-- DDC_PKT6, R61, semantics R80: the framed packet of a SEND_COMMAND with a value, for the latched request's handle;
what is left of R80 is steps 3 and 4, so the check byte is computed, whatever stood there (DESIGN CHOICE, log entry 1). -/
def execDdcPkt6 (command hi lo check : Byte) (s : State) : Out :=
  transmitFramed s.req.serviceHandle [0x84#8, 0x03#8, command, hi, lo, check] .six s

end Sys2Proof.Machine
end

