-- ==== Sys2Proof/Machine/FirmwareBlock.lean ====
section
/-! DEFINITION. Operation family 3, the firmware block transfer and its length validator: WRITE_BLOCK, READ_BLOCK,
VERIFY_BLOCK (42_firmware_block.md). The size check comes before the gate's handle check (R108). -/

namespace Sys2Proof.Machine

/-- WRITE_BLOCK, R101. -/
def execWriteBlock (h : Option Handle) (addr : Addr) (payload : Bytes) (s : State) : Out :=
  if sizeOk payload.length then gatedWrite h Config.ddcChipAddr addr payload s else raise .sizePrecondition s

/-- READ_BLOCK, R102. -/
def execReadBlock (h : Option Handle) (addr : Addr) (len : Nat) (s : State) : Out :=
  if sizeOk len then gatedRead h Config.ddcChipAddr addr len .deliver s else raise .sizePrecondition s

/-- VERIFY_BLOCK, R103: READ_BLOCK's check and read, then a byte-for-byte comparison with the operand. -/
def execVerifyBlock (h : Option Handle) (addr : Addr) (expected : Bytes) (s : State) : Out :=
  if sizeOk expected.length then gatedRead h Config.ddcChipAddr addr expected.length (.compare expected) s
  else raise .sizePrecondition s

end Sys2Proof.Machine
end

