-- ==== Sys2Proof/Machine/RawTransport.lean ====
section
/-! DEFINITION. Operation family 1, the raw transport gate: RAW_WRITE, RAW_READ (40_raw_transport.md). -/

namespace Sys2Proof.Machine

/-- RAW_WRITE, R71: no size check, no framing, the payload verbatim. -/
def execRawWrite (h : Option Handle) (chip : Chip) (addr : Addr) (payload : Bytes) (s : State) : Out :=
  gatedWrite h chip addr payload s

/-- RAW_READ, R72: no size check, the bytes unexamined. -/
def execRawRead (h : Option Handle) (chip : Chip) (addr : Addr) (len : Nat) (s : State) : Out :=
  gatedRead h chip addr len .deliver s

end Sys2Proof.Machine
end

