-- ==== Sys2Proof/Machine/Reserved.lean ====
section
/-! DEFINITION. The reserved selector value 7 (30_encoding.md R63, 60_exceptions.md R125). -/

namespace Sys2Proof.Machine

/-- RESERVED_7, R125: the request completes with ILLEGAL_REQUEST; no transport call, the handle not looked at. -/
def execReserved7 (s : State) : Out := raise .illegalRequest s

end Sys2Proof.Machine
end

