-- ==== Sys2Proof/Machine/Dispatch.lean ====
section
/-! DEFINITION. One arm per constructor of `Instr`: each a direct call of the instruction's meaning. -/

namespace Sys2Proof.Machine

def exec (i : Instr) (s : State) : Host.Outcome State Fault Refusal :=
  match i with
  | .rawWrite h chip addr payload => Sys2Proof.Machine.execRawWrite h chip addr payload s
  | .rawRead h chip addr len => Sys2Proof.Machine.execRawRead h chip addr len s
  | .sendCommand h command value => Sys2Proof.Machine.execSendCommand h command value s
  | .readResponse h len => Sys2Proof.Machine.execReadResponse h len s
  | .writeBlock h addr payload => Sys2Proof.Machine.execWriteBlock h addr payload s
  | .readBlock h addr len => Sys2Proof.Machine.execReadBlock h addr len s
  | .verifyBlock h addr expected => Sys2Proof.Machine.execVerifyBlock h addr expected s
  | .reserved7 => Sys2Proof.Machine.execReserved7 s
  | .ddcPkt4 command check => Sys2Proof.Machine.execDdcPkt4 command check s
  | .ddcPkt6 command hi lo check => Sys2Proof.Machine.execDdcPkt6 command hi lo check s

end Sys2Proof.Machine
end

