-- ==== Sys2Proof/Machine/Fetch.lean ====
section
/-! DEFINITION. Where a step finds its next instruction, and how the opcode table's words are placed there
(10_state.md R12, R13, R19; log entries 1, 10, 11). -/

namespace Sys2Proof.Machine

/-- What the next step runs, and the state it runs it in. IDLE: the oldest request on the REQ port, accepted. BUSY with
no `TREQ` outstanding: the framed packet in `PKT`. Otherwise nothing is fetched. -/
def State.fetch (s : State) : Option (Fetched × State) :=
  match s.phase with
  | .idle =>
    match s.reqPort with
    | [] => none
    | r :: rest => some (.request r, s.accept r rest)
  | .busy =>
    match s.treq with
    | none => some (.packet s.pktBytes, s)
    | some _ => none

/-- Present a request before all others on the REQ port, with no operation in flight. -/
def State.placeRequest (r : Req) (s : State) : State :=
  { s with phase := .idle, treq := none, reqPort := r :: s.reqPort }

/-- The SEND_COMMAND request that frames the packet bytes `p`, with the handle of `r`. -/
def requestOfPacket (p : Bytes) (r : Req) : Req :=
  { Req.zero 2#3 with
    handlePresent := r.handlePresent, handle := r.handle, command := p.getD 2 0#8, hasValue := decide (p.length = 6),
    value := if p.length = 6 then joinValue (p.getD 3 0#8) (p.getD 4 0#8) else 0#16 }

/-- The state in the middle of the SEND_COMMAND that frames `p`, before its checksum step: `p` in `PKT`, its request
latched for the handle the latch held, BUSY, no `TREQ` emitted. -/
def State.placePacket (p : Bytes) (n : PktLen) (s : State) : State :=
  { s.setPkt p n with phase := .busy, treq := none, req := requestOfPacket p s.req }

/-- Store the opcode table's word where the next step fetches. -/
def State.placeTableWord (nbits w : Nat) (s : State) : State :=
  if nbits = 32 then s.placePacket (packetBytesOf 4 w) .four
  else if nbits = 48 then s.placePacket (packetBytesOf 6 w) .six
  else s.placeRequest (Req.zero (BitVec.ofNat 3 w))

end Sys2Proof.Machine
end

