-- ==== Sys2Proof/Machine/Step.lean ====
section
/-! DEFINITION. One step of the block. -/

namespace Sys2Proof.Machine

/-- One step. With something to fetch, what the decoder makes of it runs (R12, R13, R19), and packet bytes that are no
packet are refused by name; with nothing to fetch, an outstanding `TREQ`'s answer is taken, or the block idles. -/
def step (s : State) : Host.Outcome State Fault Refusal :=
  match s.fetch with
  | none => stepWithoutFetch s
  | some (f, u) =>
    match decode f with
    | .ok i => exec i u
    | .error e => .refused (.undecodablePacket e)

/-- The state with an instruction's word, numbered as the opcode table numbers it, stored where the next step fetches
(log entries 10, 11). -/
def State.withFetchWord (s : State) (nbits w : Nat) : State := s.placeTableWord nbits w

end Sys2Proof.Machine
end

