-- ==== Sys2Proof/Machine/Environment.lean ====
section
/-! DEFINITION. What the outside world does to the block's ports between steps: the host's and the environment's side of
10_state.md R20, and reset (70_reset_and_hazards.md R140, R141). -/

namespace Sys2Proof.Machine

/-- The host presents a request: it is the last in the REQ port's order (R20, R42, R144). It may do so in either phase. -/
def presentRequest (r : Req) (s : State) : State := { s with reqPort := s.reqPort ++ [r] }

/-- The environment sends an answer (R20): the last in the TRSP port's order. -/
def sendAnswer (a : TRsp) (s : State) : State := { s with trspPort := s.trspPort ++ [a] }

/-- The host takes the oldest result off the RES port, if there is one (R20). -/
def takeResult (s : State) : Option Res × State := (s.resPort.head?, { s with resPort := s.resPort.tail })

/-- Reset (R140, R141). IDLE: the block comes up as after reset; what the host has presented and what the channel will
answer are theirs and stay. BUSY: refused, outside the model. -/
def applyReset (s : State) : Out :=
  match s.phase with
  | .idle => .next { State.reset with reqPort := s.reqPort, trspPort := s.trspPort }
  | .busy => .refused .resetWhileBusy

end Sys2Proof.Machine
end

