-- ==== Sys2Proof/Safety.lean ====
section
/-! DEFINITION. What the statements call a correct record of an operation and a good state: the failure matrix and its
priorities (60_exceptions.md R127, R133), the transport call each operation makes (20_memory.md R32), and the phase's
promise about the TREQ port (10_state.md R12, R20). Written from the rules' tables over the request record, not from the
meanings. -/

namespace Sys2Proof.Machine

/-- The length a block operation tests (R100, R133), where there is one: operations 4 and 6 test the payload's length,
operation 5 the length operand. -/
def lengthTested (r : Req) : Option Nat :=
  if r.op = 4#3 ∨ r.op = 6#3 then some r.payload.length
  else if r.op = 5#3 then some r.len
  else none

/-- The request is a block operation above the ceiling (R100). -/
def oversize (r : Req) : Bool :=
  match lengthTested r with
  | some n => decide (4096 < n)
  | none => false

/-- The closed form of the packet (R84). -/
def closedPacket (c : Byte) (v : Option Value) : Bytes :=
  match v with
  | none => [0x82#8, 0x01#8, c, 0xBC#8 ^^^ c]
  | some v =>
    [0x84#8, 0x03#8, c, v.extractLsb' 8 8, v.extractLsb' 0 8,
      0xB8#8 ^^^ c ^^^ v.extractLsb' 8 8 ^^^ v.extractLsb' 0 8]

/-- A write to the device space. -/
def writeCall (h : Handle) (chip : Chip) (addr : Addr) (p : Bytes) : TReq :=
  { write := true, handle := h, chip := chip, addr := addr, len := p.length, payload := p }

/-- A read of the device space. -/
def readCall (h : Handle) (chip : Chip) (addr : Addr) (n : Nat) : TReq :=
  { write := false, handle := h, chip := chip, addr := addr, len := n, payload := [] }

/-- The one transport call a request makes when it makes one: the table of R32, in the selector order of R52. The
reserved selector makes none, and `conforms` never asks for it. -/
def requestCall (r : Req) : TReq :=
  match r.op.toNat with
  | 0 => writeCall r.handle r.chip r.addr r.payload
  | 1 => readCall r.handle r.chip r.addr r.len
  | 2 => writeCall r.handle 0x37#7 0x51#32 (closedPacket r.command r.optionalValue)
  | 3 => readCall r.handle 0x37#7 0#32 r.len
  | 4 => writeCall r.handle 0x37#7 r.addr r.payload
  | 5 => readCall r.handle 0x37#7 r.addr r.len
  | _ => readCall r.handle 0x37#7 r.addr r.payload.length

/-- The last two columns of R133: what a request reports when its transport call got the answer `a`. -/
def matrixResult (r : Req) (a : TRsp) : Res :=
  if a.ok = false then { ok := false, kind := .transportFailure, code := some a.code, data := [] }
  else if r.op = 1#3 ∨ r.op = 3#3 ∨ r.op = 5#3 then { ok := true, kind := .ok, code := none, data := a.data }
  else if r.op = 6#3 ∧ a.data ≠ r.payload then { ok := false, kind := .verifyMismatch, code := none, data := [] }
  else { ok := true, kind := .ok, code := none, data := [] }

/-- A failure reported before any transport call (R120). -/
def earlyFailure (k : Kind) : Res := { ok := false, kind := k, code := none, data := [] }

/-- The answer keeps the channel's contract (R20): a read answered `ok = 1` has exactly the bytes asked for. -/
def contractKept (t : TReq) (a : TRsp) : Prop := t.write = false → a.ok = true → a.data.length = t.len

/-- The result the first three conditions of R127 give, in their order, where one holds. -/
def earlyResult (r : Req) : Option Kind :=
  if r.op = 7#3 then some .illegalRequest
  else if oversize r then some .sizePrecondition
  else if r.handlePresent = false then some .unavailableHandle
  else none

/-- The record of an operation is one the rules allow: either no exchange and the first condition of R127 that holds, or
exactly one exchange, of the call R32 gives, with an answer that keeps the contract, and R133's result for it. -/
def OpRecord.conforms (rec : OpRecord) : Prop :=
  (∃ k, earlyResult rec.request = some k ∧ rec.exchanges = [] ∧ rec.result = earlyFailure k) ∨
  (earlyResult rec.request = none ∧ ∃ a, contractKept (requestCall rec.request) a ∧
    rec.exchanges = [⟨requestCall rec.request, a⟩] ∧ rec.result = matrixResult rec.request a)

/-- The phase's promise: IDLE, no `TREQ` is outstanding; BUSY, the one outstanding is the latched request's, which
reaches the channel, or the latched request is a SEND_COMMAND whose packet stands in `PKT` before its checksum step. This
last alternative is the model's own state (log entry 1, DESIGN CHOICE). -/
def State.phaseGood (s : State) : Prop :=
  (s.phase = .idle → s.treq = none) ∧
  (s.phase = .busy → ∀ t, s.treq = some t → earlyResult s.req = none ∧ t = requestCall s.req) ∧
  (s.phase = .busy → s.treq = none → s.req.op = 2#3 ∧
    s.pktBytes.dropLast = (closedPacket s.req.command s.req.optionalValue).dropLast)

/-- A good state: the phase keeps its promise and every record of the trace conforms. -/
def State.good (s : State) : Prop := s.phaseGood ∧ ∀ rec ∈ s.trace, rec.conforms

/-- The state in which the operation latched in `s` has ended with the exchanges `xs` and the result `r`: IDLE, nothing
outstanding, the result in `res` and last on the RES port, the operation last in the trace (R12, R17, R23). -/
def State.finishedWith (s : State) (xs : List Exchange) (r : Res) : State :=
  { s with phase := .idle, treq := none, res := r, resPort := s.resPort ++ [r],
           trace := s.trace ++ [{ request := s.req, exchanges := xs, result := r }] }

/-- The state in which the operation latched in `s` has emitted `t` and waits, BUSY (R12, R20). -/
def State.waitingFor (s : State) (t : TReq) : State := { s with phase := .busy, treq := some t }

/-- The state with one answer taken off the TRSP port, `rest` left. -/
def State.answersLeft (s : State) (rest : List TRsp) : State := { s with trspPort := rest }

/-- The state with the bytes of a successful read in `RBUF` (R16). -/
def State.withRbuf (s : State) (data : Bytes) : State := { s with rbuf := data }

/-- The state with the packet of a command in `PKT`, its length in `PKT_LEN` and its checksum in `CHK` (R14, R15, R84).
The bytes of `PKT` above the length keep their values. -/
def State.withPacket (s : State) (c : Byte) (v : Option Value) : State :=
  match v with
  | none => { s with pkt := #v[0x82#8, 0x01#8, c, 0xBC#8 ^^^ c, s.pkt[4], s.pkt[5]], pktLen := .four,
                     chk := 0xBC#8 ^^^ c }
  | some v =>
    { s with pkt := #v[0x84#8, 0x03#8, c, v.extractLsb' 8 8, v.extractLsb' 0 8,
                       0xB8#8 ^^^ c ^^^ v.extractLsb' 8 8 ^^^ v.extractLsb' 0 8],
             pktLen := .six, chk := 0xB8#8 ^^^ c ^^^ v.extractLsb' 8 8 ^^^ v.extractLsb' 0 8 }

/-- What a write reports for the answer `a` (R71, R80, R101). -/
def writeResult (a : TRsp) : Res :=
  if a.ok then { ok := true, kind := .ok, code := none, data := [] }
  else { ok := false, kind := .transportFailure, code := some a.code, data := [] }

/-- The number of bytes an instruction's read asks for, where it is an operation that reads and its handle is present
and its size check passes. -/
def readLength (i : Instr) : Option Nat :=
  match i with
  | .rawRead (some _) _ _ n => some n
  | .readResponse (some _) n => some n
  | .readBlock (some _) _ n => if n ≤ 4096 then some n else none
  | .verifyBlock (some _) _ e => if e.length ≤ 4096 then some e.length else none
  | _ => none

/-- Every request accepted or waiting, in order: those finished, the one in flight, those on the REQ port. -/
def State.requestOrder (s : State) : List Req :=
  s.trace.map (fun rec => rec.request) ++ (if s.phase = .busy then [s.req] else []) ++ s.reqPort

/-- Every answer taken or waiting, in order. -/
def State.answerOrder (s : State) : List TRsp :=
  s.trace.flatMap (fun rec => rec.exchanges.map (fun x => x.answer)) ++ s.trspPort

/-- The two requests agree on the fields R53 lists for their operation (the handle pair as R21 reads it). -/
def sameOperands (r q : Req) : Prop :=
  r.op = q.op ∧ (r.op ≠ 7#3 → r.serviceHandle = q.serviceHandle) ∧
  (r.op = 0#3 ∨ r.op = 1#3 → r.chip = q.chip) ∧
  (r.op = 0#3 ∨ r.op = 1#3 ∨ r.op = 4#3 ∨ r.op = 5#3 ∨ r.op = 6#3 → r.addr = q.addr) ∧
  (r.op = 1#3 ∨ r.op = 3#3 ∨ r.op = 5#3 → r.len = q.len) ∧
  (r.op = 2#3 → r.command = q.command ∧ r.hasValue = q.hasValue ∧ (r.hasValue = true → r.value = q.value)) ∧
  (r.op = 0#3 ∨ r.op = 4#3 ∨ r.op = 6#3 → r.payload = q.payload)

/-! Renaming the opaque values: a handle `h` to `f h`, a status code `c` to `g c`, everywhere in a state. -/

/-- Rename a request's handle. -/
def renameReq (f : Handle → Handle) (r : Req) : Req := { r with handle := f r.handle }

/-- Rename a result's code. -/
def Res.rename (g : Code → Code) (r : Res) : Res := { r with code := r.code.map g }

/-- Rename a transport request's handle. -/
def TReq.rename (f : Handle → Handle) (t : TReq) : TReq := { t with handle := f t.handle }

/-- Rename an answer's code. -/
def TRsp.rename (g : Code → Code) (a : TRsp) : TRsp := { a with code := g a.code }

/-- Rename in an exchange. -/
def Exchange.rename (f : Handle → Handle) (g : Code → Code) (x : Exchange) : Exchange :=
  { call := x.call.rename f, answer := x.answer.rename g }

/-- Rename in a record. -/
def OpRecord.rename (f : Handle → Handle) (g : Code → Code) (rec : OpRecord) : OpRecord :=
  { request := renameReq f rec.request, exchanges := rec.exchanges.map (Exchange.rename f g),
    result := rec.result.rename g }

/-- Rename in a state. -/
def State.rename (f : Handle → Handle) (g : Code → Code) (s : State) : State :=
  { s with req := renameReq f s.req, res := s.res.rename g, reqPort := s.reqPort.map (renameReq f),
           treq := s.treq.map (TReq.rename f), trspPort := s.trspPort.map (TRsp.rename g),
           resPort := s.resPort.map (Res.rename g), trace := s.trace.map (OpRecord.rename f g) }

/-- Rename in an outcome; no fault and no refusal carries a handle or a code. -/
def renameOut (f : Handle → Handle) (g : Code → Code) (o : Out) : Out :=
  match o with
  | .next s => .next (s.rename f g)
  | .fault e => .fault e
  | .refused e => .refused e

end Sys2Proof.Machine
end

