-- ==== Sys2Proof/WellFormed.lean ====
section
/-! DEFINITION. Well-formed instructions. The widths stand in the types; every operand value of a request is legal
(30_encoding.md R63; a length above 4096 is a legal request that fails, R100). What is left is the packets' checksum
byte (R59, R60 to R62). -/

namespace Sys2Proof

/-- An instruction is well formed when it is a request, or a packet this block can have produced (R62): its check byte
is the seed XOR every byte before it. -/
def wellFormed : Instr → Bool
  | .rawWrite _ _ _ _ => true
  | .rawRead _ _ _ _ => true
  | .sendCommand _ _ _ => true
  | .readResponse _ _ => true
  | .writeBlock _ _ _ => true
  | .readBlock _ _ _ => true
  | .verifyBlock _ _ _ => true
  | .reserved7 => true
  | .ddcPkt4 c k => decide (k = Machine.xorAll Config.chkSeed [0x82#8, 0x01#8, c])
  | .ddcPkt6 c h l k => decide (k = Machine.xorAll Config.chkSeed [0x84#8, 0x03#8, c, h, l])

end Sys2Proof
end

