-- ==== Sys2Proof/Certificates/Slice0/Obligations.lean ====
section
/-! DEFINITION. The statements for the provers, each a rule of spec/ or a consequence of several. -/

open Sys2Proof
open Sys2Proof.Machine

/-! ## Reset and the step -/

/-- R24: after reset the phase is IDLE, the TREQ and RES ports hold no message, the trace is empty, and the constants of
R11 have their fixed values. -/
def Obligations.ResetIsIdleWithNothingPending : Prop :=
  State.reset.phase = .idle ∧ State.reset.treq = none ∧ State.reset.resPort = [] ∧ State.reset.trace = [] ∧
  Config.ddcChipAddr = 0x37#7 ∧ Config.ddcDataAddr = 0x51#32 ∧ Config.chkSeed = 0x3F#8 ∧ Config.hdrFlag = 0x80#8 ∧
  Config.maxBlock = 4096 ∧ Config.respLenDefault = 11 ∧ Config.respOffset = 0#32

/-- R12, R13, R19: in IDLE the oldest presented request is latched, the phase becomes BUSY, and the operation its
selector names is what runs. -/
def Obligations.StepRunsTheOldestRequest : Prop :=
  ∀ (s : State) (r : Req) (rest : List Req), s.phase = .idle → s.reqPort = r :: rest →
    decode (.request r) = .ok (decodeRequest r) ∧
    step s = exec (decodeRequest r) { s with phase := .busy, req := r, reqPort := rest }

/-- The model's choice (log entry 1): BUSY with no `TREQ` outstanding, the framed packet in `PKT` runs. -/
def Obligations.StepRunsTheFramedPacket : Prop :=
  ∀ (s : State) (i : Instr), s.phase = .busy → s.treq = none → decode (.packet (s.pkt.toList.take s.pktLen.toNat)) = .ok i →
    step s = exec i s

/-- The model's choice (log entry 7): IDLE with no request presented, a step leaves the state as it is. -/
def Obligations.IdleStepWithoutRequestChangesNothing : Prop :=
  ∀ s : State, s.phase = .idle → s.reqPort = [] → step s = .next s

/-- R148: a step faults exactly when the block is BUSY with a `TREQ` outstanding and no `TRSP` has come. -/
def Obligations.StuckExactlyWhileTheChannelIsSilent : Prop :=
  ∀ s : State, step s = .fault .noTransportAnswer ↔ (s.phase = .busy ∧ s.treq ≠ none ∧ s.trspPort = [])

/-- R12, R42, R144: while BUSY a step takes nothing off the REQ port, and while it stays BUSY it ends nothing. -/
def Obligations.BusyBlockAcceptsNoRequest : Prop :=
  ∀ s t : State, s.phase = .busy → step s = .next t →
    t.reqPort = s.reqPort ∧ t.req = s.req ∧ (t.phase = .busy → t.trace = s.trace ∧ t.resPort = s.resPort)

/-- An answer that comes after the block has waited has the effect it has when it is there at once: a request that
emits its `TREQ`, then is answered `a`, ends as the same request run with `a` on the TRSP port. -/
def Obligations.LateAnswerEndsAsAnEarlyOne : Prop :=
  ∀ (s t : State) (r : Req) (rest : List Req) (a : TRsp), s.phase = .idle → s.reqPort = r :: rest → s.trspPort = [] →
    step s = .next t → t.phase = .busy → step (sendAnswer a t) = step (sendAnswer a s)

/-- R12, R148: the answer to the outstanding call of the latched request ends the operation, with the failure matrix's
result for it. The call and the result rest on the spec's own decisions D8, D11 and D12 (log entry 19). -/
def Obligations.AnswerEndsTheWaitingOperation : Prop :=
  ∀ (s : State) (a : TRsp) (rest : List TRsp), s.phase = .busy → s.treq = some (requestCall s.req) →
    earlyResult s.req = none → s.trspPort = a :: rest → contractKept (requestCall s.req) a →
    ∃ t, step s = .next t ∧ t.phase = .idle ∧ t.treq = none ∧ t.trspPort = rest ∧ t.res = matrixResult s.req a ∧
      t.reqPort = s.reqPort ∧
      t.trace = s.trace ++
        [{ request := s.req, exchanges := [{ call := requestCall s.req, answer := a }], result := matrixResult s.req a }]

/-- R140, R141: reset while BUSY has no step; in IDLE it gives a state that is IDLE with nothing outstanding, no result
pending and an empty trace. -/
def Obligations.ResetRefusedWhileBusy : Prop :=
  ∀ s : State,
    (s.phase = .busy → applyReset s = .refused .resetWhileBusy) ∧
    (s.phase = .idle → ∃ t, applyReset s = .next t ∧ t.phase = .idle ∧ t.treq = none ∧ t.resPort = [] ∧ t.trace = [] ∧
      t.reqPort = s.reqPort)

/-- The opcode table's word, placed where the next step fetches, is the instruction that step runs. The operands a
request's word has no bits for are zero (log entry 11). -/
def Obligations.PlacedTableWordRuns : Prop :=
  ∀ (s : State) (nbits w : Nat) (i : Instr), decodeTableWord nbits w = some i →
    (nbits ≤ 8 → step (s.withFetchWord nbits w) =
      exec i { s with phase := .busy, treq := none, req := Req.zero (BitVec.ofNat 3 w) }) ∧
    (8 < nbits → step (s.withFetchWord nbits w) = exec i (s.withFetchWord nbits w))

/-! ## Encoding -/

/-- Decoding the encoding of a well-formed instruction gives it back, with every operand. -/
def Obligations.DecodeOfEncodeIsTheInstruction : Prop :=
  ∀ i : Instr, wellFormed i = true → decode (encode i) = .ok i

/-- A packet's bytes have one meaning: the instruction they decode to encodes to those bytes. -/
def Obligations.DecodedPacketEncodesToItsBytes : Prop :=
  ∀ (p : Bytes) (i : Instr), decode (.packet p) = .ok i → encode i = .packet p

/-- R62: the byte sequences this block can have produced, and how a reader tells the two lengths apart. -/
def Obligations.ProduciblePacketsAreExactlyThese : Prop :=
  ∀ p : Bytes,
    ((∃ c v, packet c v = p) ↔
      ((p.length = 4 ∨ p.length = 6) ∧ p.getD 0 0#8 = 0x80#8 ||| BitVec.ofNat 8 (p.length - 2) ∧
        p.getD 1 0#8 = BitVec.ofNat 8 (p.length - 3) ∧ p.foldl (fun x b => x ^^^ b) 0x3F#8 = 0x00#8)) ∧
    ((∃ c v, packet c v = p) ↔ ∃ i, wellFormed i = true ∧ encode i = .packet p) ∧
    ((∃ c v, packet c v = p) →
      p.length = (p.getD 1 0#8).toNat + 3 ∧ p.length = ((p.getD 0 0#8) &&& 0x7F#8).toNat + 2 ∧
      (p.length = 4 ↔ p.getD 0 0#8 = 0x82#8) ∧ (p.length = 6 ↔ p.getD 0 0#8 = 0x84#8))

/-- R53, R63: the fields an operation does not read have no effect: requests that agree on the fields listed for their
operation are the same instruction. -/
def Obligations.IgnoredFieldsHaveNoEffect : Prop :=
  ∀ r q : Req, sameOperands r q → decodeRequest r = decodeRequest q

/-- Words written out from the spec's encodings: the selectors of R52, and V1's and V2's packets. -/
def Obligations.WordsOfTheSpecDecode : Prop :=
  decodeTableWord 8 0 = some (.rawWrite none 0#7 0#32 []) ∧ decodeTableWord 8 1 = some (.rawRead none 0#7 0#32 0) ∧
  decodeTableWord 8 2 = some (.sendCommand none 0#8 none) ∧ decodeTableWord 8 6 = some (.verifyBlock none 0#32 []) ∧
  decodeTableWord 8 7 = some .reserved7 ∧ decodeTableWord 32 0x820110AC = some (.ddcPkt4 0x10#8 0xAC#8) ∧
  decodeTableWord 48 0x84031000329A = some (.ddcPkt6 0x10#8 0x00#8 0x32#8 0x9A#8) ∧
  decodeTableWord 32 0x810110AF = none

/-- R66, R67: the call syntax's defaults, and the brightness query's packet on the TREQ port. -/
def Obligations.CallSyntaxDefaults : Prop :=
  (∀ h, callReadResponse h = .readResponse h 11) ∧ (∀ h c, callSendCommand h c = .sendCommand h c none) ∧
  ∀ (h : Handle) (s : State), s.trspPort = [] → ∃ t, exec (brightnessQuery (some h)) s = .next t ∧
    t.treq = some { write := true, handle := h, chip := 0x37#7, addr := 0x51#32, len := 4,
                    payload := [0x82#8, 0x01#8, 0x10#8, 0xAC#8] }

/-! ## The packet framer and checksum -/

/-- R81: the body is the command, followed by the value's two bytes when there is a value, `value >> 8` first and
`value & 0xFF` second, from which `high*256 + low` recovers the value. -/
def Obligations.BodyIsCommandAndBigEndianValue : Prop :=
  ∀ (c : Byte) (v : Value), buildBody c none = [c] ∧ buildBody c (some v) = [c, highByte v, lowByte v] ∧
    highByte v = (v >>> 8).setWidth 8 ∧ lowByte v = (v &&& 0xFF#16).setWidth 8 ∧
    (highByte v).toNat * 256 + (lowByte v).toNat = v.toNat ∧ joinValue (highByte v) (lowByte v) = v

/-- R82: the frame of a body the codec builds: header, length byte, body, one placeholder byte; `bodyLength + 3` bytes.
The placeholder's value is not observable: with any other byte in its place the packet is the same. -/
def Obligations.FrameIsHeaderLengthBodyPlaceholder : Prop :=
  ∀ (c : Byte) (v : Option Value), ∃ n : Nat, n = (buildBody c v).length ∧ (n = 1 ∨ n = 3) ∧
    frame (buildBody c v) = [0x80#8 ||| BitVec.ofNat 8 (n + 1), BitVec.ofNat 8 n] ++ buildBody c v ++ [0x00#8] ∧
    (frame (buildBody c v)).length = n + 3 ∧ 0x80#8 ||| BitVec.ofNat 8 (n + 1) = BitVec.ofNat 8 (0x80 + n + 1) ∧
    ∀ b : Byte, checksum ((frame (buildBody c v)).dropLast ++ [b]) = packet c v

/-- R83: on every non-empty packet the checksum replaces the last byte only and is the seed 0x3F XOR the bytes before it,
which may be folded in any order; the seed XOR all bytes is then zero, and a second checksum changes nothing. -/
def Obligations.ChecksumReplacesOnlyTheLastByte : Prop :=
  Config.chkSeed = (0x37#8 <<< 1) ^^^ 0x51#8 ∧ (0x37#8 <<< 1) ^^^ 0x51#8 = 0x3F#8 ∧
  ∀ (rest : Bytes) (b : Byte),
    checksum (rest ++ [b]) = rest ++ [rest.foldl (fun x y => x ^^^ y) 0x3F#8] ∧
    (∀ q : Bytes, rest.Perm q → q.foldl (fun x y => x ^^^ y) 0x3F#8 = rest.foldl (fun x y => x ^^^ y) 0x3F#8) ∧
    (checksum (rest ++ [b])).foldl (fun x y => x ^^^ y) 0x3F#8 = 0x00#8 ∧
    checksum (checksum (rest ++ [b])) = checksum (rest ++ [b])

/-- R84: the closed forms of the whole packet, and the XOR of the seed with all its bytes. -/
def Obligations.PacketHasItsClosedForm : Prop :=
  ∀ (c : Byte) (v : Option Value), packet c v = closedPacket c v ∧
    (packet c v).foldl (fun x y => x ^^^ y) 0x3F#8 = 0x00#8

/-- R87: D0's properties of SEND_COMMAND: packet length, header, checksum, value bytes, and the absent handle. -/
def Obligations.SendCommandPropertiesOfTheSource : Prop :=
  ∀ (c : Byte) (v : Option Value) (s : State),
    (packet c v).length = (buildBody c v).length + 3 ∧
    (packet c v).head? = some (0x80#8 ||| BitVec.ofNat 8 ((buildBody c v).length + 1)) ∧
    (packet c v).getLast? = some ((packet c v).dropLast.foldl (fun x y => x ^^^ y) 0x3F#8) ∧
    (∀ w, v = some w → ((packet c v).getD 3 0#8).toNat = (w >>> 8).toNat ∧
      ((packet c v).getD 4 0#8).toNat = (w &&& 0xFF#16).toNat ∧
      (w >>> 8).toNat * 256 + (w &&& 0xFF#16).toNat = w.toNat) ∧
    (∃ t, exec (.sendCommand none c v) s = .next t ∧ t.treq = none ∧ t.trspPort = s.trspPort ∧
      t.trace = s.trace ++ [{ request := s.req, exchanges := [], result := earlyFailure .unavailableHandle }])

/-! ## The operations -/

/-- R71: RAW_WRITE with the handle absent, with no answer yet, and with the answer `a`. No length is refused. -/
def Obligations.RawWriteOutcome : Prop :=
  (∀ r : Req, r.op = 0#3 → decodeRequest r = .rawWrite r.serviceHandle r.chip r.addr r.payload) ∧
  ∀ (chip : Chip) (addr : Addr) (p : Bytes) (s : State),
    exec (.rawWrite none chip addr p) s = .next (s.finishedWith [] (earlyFailure .unavailableHandle)) ∧
    ∀ h : Handle,
      (s.trspPort = [] → exec (.rawWrite (some h) chip addr p) s = .next (s.waitingFor (writeCall h chip addr p))) ∧
      (∀ a rest, s.trspPort = a :: rest →
        exec (.rawWrite (some h) chip addr p) s =
          .next ((s.answersLeft rest).finishedWith [⟨writeCall h chip addr p, a⟩] (writeResult a)))

/-- R72: RAW_READ with the handle absent, with no answer yet, with a failing answer, and with the bytes asked for. No
length is refused. The model's: `RBUF` unchanged after a failing answer (log entry 17, DEDUCED), the bytes standing in
`RBUF` after the end (log entry 13, DESIGN CHOICE). -/
def Obligations.RawReadOutcome : Prop :=
  (∀ r : Req, r.op = 1#3 → decodeRequest r = .rawRead r.serviceHandle r.chip r.addr r.len) ∧
  ∀ (chip : Chip) (addr : Addr) (n : Nat) (s : State),
    exec (.rawRead none chip addr n) s = .next (s.finishedWith [] (earlyFailure .unavailableHandle)) ∧
    ∀ h : Handle,
      (s.trspPort = [] → exec (.rawRead (some h) chip addr n) s = .next (s.waitingFor (readCall h chip addr n))) ∧
      (∀ a rest, s.trspPort = a :: rest → a.ok = false →
        exec (.rawRead (some h) chip addr n) s =
          .next ((s.answersLeft rest).finishedWith [⟨readCall h chip addr n, a⟩]
            { ok := false, kind := .transportFailure, code := some a.code, data := [] })) ∧
      (∀ a rest, s.trspPort = a :: rest → a.ok = true → a.data.length = n →
        exec (.rawRead (some h) chip addr n) s =
          .next (((s.answersLeft rest).withRbuf a.data).finishedWith [⟨readCall h chip addr n, a⟩]
            { ok := true, kind := .ok, code := none, data := a.data }))

/-- R80, R86: SEND_COMMAND builds its packet in `PKT`, whatever the handle, and writes it whole to chip 0x37, data
address 0x51. The model's: `PKT`, `PKT_LEN` and `CHK` holding the packet in the ended state (log entry 13, DESIGN CHOICE),
also with the handle absent (log entry 17, DEDUCED; R80 calls that packet discarded and never observable). -/
def Obligations.SendCommandOutcome : Prop :=
  (∀ r : Req, r.op = 2#3 → decodeRequest r = .sendCommand r.serviceHandle r.command r.optionalValue) ∧
  ∀ (c : Byte) (v : Option Value) (s : State),
    exec (.sendCommand none c v) s = .next ((s.withPacket c v).finishedWith [] (earlyFailure .unavailableHandle)) ∧
    ∀ h : Handle,
      (s.trspPort = [] → exec (.sendCommand (some h) c v) s =
        .next ((s.withPacket c v).waitingFor (writeCall h 0x37#7 0x51#32 (closedPacket c v)))) ∧
      (∀ a rest, s.trspPort = a :: rest →
        exec (.sendCommand (some h) c v) s =
          .next (((s.withPacket c v).answersLeft rest).finishedWith
            [⟨writeCall h 0x37#7 0x51#32 (closedPacket c v), a⟩] (writeResult a)))

/-- R85: READ_RESPONSE reads at chip 0x37, offset 0, with no size check, and delivers the bytes unexamined.
The address is R85's own decision D11 (log entry 19, unsafe). The model's: `RBUF` unchanged after a failing answer (log
entry 17, DEDUCED), the bytes standing in `RBUF` after the end (log entry 13, DESIGN CHOICE). -/
def Obligations.ReadResponseOutcome : Prop :=
  (∀ r : Req, r.op = 3#3 → decodeRequest r = .readResponse r.serviceHandle r.len) ∧
  ∀ (n : Nat) (s : State),
    exec (.readResponse none n) s = .next (s.finishedWith [] (earlyFailure .unavailableHandle)) ∧
    ∀ h : Handle,
      (s.trspPort = [] → exec (.readResponse (some h) n) s = .next (s.waitingFor (readCall h 0x37#7 0#32 n))) ∧
      (∀ a rest, s.trspPort = a :: rest → a.ok = false →
        exec (.readResponse (some h) n) s =
          .next ((s.answersLeft rest).finishedWith [⟨readCall h 0x37#7 0#32 n, a⟩]
            { ok := false, kind := .transportFailure, code := some a.code, data := [] })) ∧
      (∀ a rest, s.trspPort = a :: rest → a.ok = true → a.data.length = n →
        exec (.readResponse (some h) n) s =
          .next (((s.answersLeft rest).withRbuf a.data).finishedWith [⟨readCall h 0x37#7 0#32 n, a⟩]
            { ok := true, kind := .ok, code := none, data := a.data }))

/-- R101: WRITE_BLOCK: the size check first, then the handle, then one write of the payload verbatim to chip 0x37.
Size before handle is R108's decision D8 (log entry 19, DEDUCED). -/
def Obligations.WriteBlockOutcome : Prop :=
  (∀ r : Req, r.op = 4#3 → decodeRequest r = .writeBlock r.serviceHandle r.addr r.payload) ∧
  ∀ (addr : Addr) (p : Bytes) (s : State),
    (4096 < p.length → ∀ ho, exec (.writeBlock ho addr p) s =
      .next (s.finishedWith [] (earlyFailure .sizePrecondition))) ∧
    (p.length ≤ 4096 →
      exec (.writeBlock none addr p) s = .next (s.finishedWith [] (earlyFailure .unavailableHandle)) ∧
      ∀ h : Handle,
        (s.trspPort = [] → exec (.writeBlock (some h) addr p) s = .next (s.waitingFor (writeCall h 0x37#7 addr p))) ∧
        (∀ a rest, s.trspPort = a :: rest →
          exec (.writeBlock (some h) addr p) s =
            .next ((s.answersLeft rest).finishedWith [⟨writeCall h 0x37#7 addr p, a⟩] (writeResult a))))

/-- R102: READ_BLOCK: the size check first, then the handle, then one read at chip 0x37. Chip 0x37 is R102's own decision
D12 (log entry 19, unsafe), size before handle R108's D8 (log entry 19, DEDUCED). The model's: `RBUF` unchanged after a
failing answer (log entry 17, DEDUCED), the bytes standing in `RBUF` after the end (log entry 13, DESIGN CHOICE). -/
def Obligations.ReadBlockOutcome : Prop :=
  (∀ r : Req, r.op = 5#3 → decodeRequest r = .readBlock r.serviceHandle r.addr r.len) ∧
  ∀ (addr : Addr) (n : Nat) (s : State),
    (4096 < n → ∀ ho, exec (.readBlock ho addr n) s = .next (s.finishedWith [] (earlyFailure .sizePrecondition))) ∧
    (n ≤ 4096 →
      exec (.readBlock none addr n) s = .next (s.finishedWith [] (earlyFailure .unavailableHandle)) ∧
      ∀ h : Handle,
        (s.trspPort = [] → exec (.readBlock (some h) addr n) s = .next (s.waitingFor (readCall h 0x37#7 addr n))) ∧
        (∀ a rest, s.trspPort = a :: rest → a.ok = false →
          exec (.readBlock (some h) addr n) s =
            .next ((s.answersLeft rest).finishedWith [⟨readCall h 0x37#7 addr n, a⟩]
              { ok := false, kind := .transportFailure, code := some a.code, data := [] })) ∧
        (∀ a rest, s.trspPort = a :: rest → a.ok = true → a.data.length = n →
          exec (.readBlock (some h) addr n) s =
            .next (((s.answersLeft rest).withRbuf a.data).finishedWith [⟨readCall h 0x37#7 addr n, a⟩]
              { ok := true, kind := .ok, code := none, data := a.data })))

/-- R103: VERIFY_BLOCK: the size check first, then the handle, then one read at chip 0x37, whose bytes are compared with
the operand and not returned. Chip 0x37 is the decision D12 (log entry 19, unsafe), size before handle R108's D8 (log
entry 19, DEDUCED). The model's: `RBUF` unchanged after a failing answer (log entry 17, DEDUCED), the bytes standing in
`RBUF` after the end (log entry 13, DESIGN CHOICE). -/
def Obligations.VerifyBlockOutcome : Prop :=
  (∀ r : Req, r.op = 6#3 → decodeRequest r = .verifyBlock r.serviceHandle r.addr r.payload) ∧
  ∀ (addr : Addr) (e : Bytes) (s : State),
    (4096 < e.length → ∀ ho, exec (.verifyBlock ho addr e) s =
      .next (s.finishedWith [] (earlyFailure .sizePrecondition))) ∧
    (e.length ≤ 4096 →
      exec (.verifyBlock none addr e) s = .next (s.finishedWith [] (earlyFailure .unavailableHandle)) ∧
      ∀ h : Handle,
        (s.trspPort = [] →
          exec (.verifyBlock (some h) addr e) s = .next (s.waitingFor (readCall h 0x37#7 addr e.length))) ∧
        (∀ a rest, s.trspPort = a :: rest → a.ok = false →
          exec (.verifyBlock (some h) addr e) s =
            .next ((s.answersLeft rest).finishedWith [⟨readCall h 0x37#7 addr e.length, a⟩]
              { ok := false, kind := .transportFailure, code := some a.code, data := [] })) ∧
        (∀ a rest, s.trspPort = a :: rest → a.ok = true → a.data = e →
          exec (.verifyBlock (some h) addr e) s =
            .next (((s.answersLeft rest).withRbuf a.data).finishedWith [⟨readCall h 0x37#7 addr e.length, a⟩]
              { ok := true, kind := .ok, code := none, data := [] })) ∧
        (∀ a rest, s.trspPort = a :: rest → a.ok = true → a.data.length = e.length → a.data ≠ e →
          exec (.verifyBlock (some h) addr e) s =
            .next (((s.answersLeft rest).withRbuf a.data).finishedWith [⟨readCall h 0x37#7 addr e.length, a⟩]
              { ok := false, kind := .verifyMismatch, code := none, data := [] })))

/-- R2, R7, R85, R86, R101, R102: every operation is built on the raw transport: SEND_COMMAND is the raw write of its packet at the DDC
addresses, READ_RESPONSE the raw read at offset 0, and a block operation the size check allows the raw transfer at chip
0x37. READ_RESPONSE's address is R85's own decision D11, READ_BLOCK's chip R102's D12 (log entry 19). -/
def Obligations.OperationsAreBuiltOnTheRawTransport : Prop :=
  ∀ (ho : Option Handle) (c : Byte) (v : Option Value) (addr : Addr) (p : Bytes) (n : Nat) (s : State),
    exec (.sendCommand ho c v) s = exec (.rawWrite ho 0x37#7 0x51#32 (closedPacket c v)) (s.withPacket c v) ∧
    exec (.readResponse ho n) s = exec (.rawRead ho 0x37#7 0#32 n) s ∧
    (p.length ≤ 4096 → exec (.writeBlock ho addr p) s = exec (.rawWrite ho 0x37#7 addr p) s) ∧
    (n ≤ 4096 → exec (.readBlock ho addr n) s = exec (.rawRead ho 0x37#7 addr n) s)

/-- R67, R103: VERIFY_BLOCK is READ_BLOCK of the operand's length followed by a byte-for-byte comparison: the same
answer taken, the same exchange recorded, READ_BLOCK's failure reported as it is, and its bytes not returned. -/
def Obligations.VerifyIsReadBlockThenCompare : Prop :=
  ∀ (ho : Option Handle) (addr : Addr) (e : Bytes) (s t : State), exec (.readBlock ho addr e.length) s = .next t →
    ∃ u, exec (.verifyBlock ho addr e) s = .next u ∧ u.phase = t.phase ∧ u.treq = t.treq ∧ u.trspPort = t.trspPort ∧
      u.rbuf = t.rbuf ∧
      (t.phase = .idle →
        u.res = (if t.res.ok = false then t.res
          else if t.res.data = e then { ok := true, kind := .ok, code := none, data := [] }
          else { ok := false, kind := .verifyMismatch, code := none, data := [] }) ∧
        ∃ xs, t.trace = s.trace ++ [{ request := s.req, exchanges := xs, result := t.res }] ∧
          u.trace = s.trace ++ [{ request := s.req, exchanges := xs, result := u.res }])

/-- R125: the reserved selector completes with ILLEGAL_REQUEST, no transport call, whatever the latched handle: the
spec's own decision D3 (log entry 19). -/
def Obligations.ReservedSelectorIsIllegalRequest : Prop :=
  (∀ r : Req, r.op = 7#3 → decodeRequest r = .reserved7) ∧
  ∀ s : State, exec .reserved7 s = .next (s.finishedWith [] (earlyFailure .illegalRequest))

/-- The model's choice (log entry 1), R60, R61: the packet rows transmit their packet for the latched handle, with the
checksum computed. -/
def Obligations.PacketRowsTransmitTheirPacket : Prop :=
  ∀ (c k h l : Byte) (s : State),
    (s.req.handlePresent = false →
      exec (.ddcPkt4 c k) s = .next ((s.withPacket c none).finishedWith [] (earlyFailure .unavailableHandle)) ∧
      exec (.ddcPkt6 c h l k) s =
        .next ((s.withPacket c (some (h ++ l))).finishedWith [] (earlyFailure .unavailableHandle))) ∧
    (s.req.handlePresent = true → s.trspPort = [] →
      exec (.ddcPkt4 c k) s =
        .next ((s.withPacket c none).waitingFor (writeCall s.req.handle 0x37#7 0x51#32 (closedPacket c none))) ∧
      exec (.ddcPkt6 c h l k) s =
        .next ((s.withPacket c (some (h ++ l))).waitingFor
          (writeCall s.req.handle 0x37#7 0x51#32 (closedPacket c (some (h ++ l)))))) ∧
    (∀ a rest, s.req.handlePresent = true → s.trspPort = a :: rest →
      exec (.ddcPkt4 c k) s =
        .next (((s.withPacket c none).answersLeft rest).finishedWith
          [⟨writeCall s.req.handle 0x37#7 0x51#32 (closedPacket c none), a⟩] (writeResult a)) ∧
      exec (.ddcPkt6 c h l k) s =
        .next (((s.withPacket c (some (h ++ l))).answersLeft rest).finishedWith
          [⟨writeCall s.req.handle 0x37#7 0x51#32 (closedPacket c (some (h ++ l))), a⟩] (writeResult a)))

/-- The model's choice (log entry 1): a packet row is what is left of the SEND_COMMAND that frames its packet. -/
def Obligations.PacketRowIsTheRestOfItsSendCommand : Prop :=
  ∀ (c k : Byte) (v : Value) (s : State),
    exec (.ddcPkt4 c k) s = exec (.sendCommand s.req.serviceHandle c none) s ∧
    exec (.ddcPkt6 c (highByte v) (lowByte v) k) s = exec (.sendCommand s.req.serviceHandle c (some v)) s

/-- Every instruction answers a next state in every state, but for a read whose answer breaks the channel's contract,
which is outside the model (U4). -/
def Obligations.EveryInstructionCompletes : Prop :=
  ∀ (i : Instr) (s : State),
    ((∀ a rest n, s.trspPort = a :: rest → readLength i = some n → a.ok = true → a.data.length = n) →
      ∃ t, exec i s = .next t) ∧
    ((∃ a rest n, s.trspPort = a :: rest ∧ readLength i = some n ∧ a.ok = true ∧ a.data.length ≠ n) →
      exec i s = .refused .answerBreaksContract)

/-! ## Frames -/

/-- R75, R104: RAW_WRITE, WRITE_BLOCK and the reserved selector leave the latch, the packet buffer, the accumulator, the
read buffer and the waiting requests as they are; `res`, the RES port and the trace change only when the operation ends,
and then by its one result. -/
def Obligations.WriteFrame : Prop :=
  ∀ (ho : Option Handle) (chip : Chip) (addr : Addr) (p : Bytes) (s t : State) (i : Instr),
    i = .rawWrite ho chip addr p ∨ i = .writeBlock ho addr p ∨ i = .reserved7 → exec i s = .next t →
    t.req = s.req ∧ t.pkt = s.pkt ∧ t.pktLen = s.pktLen ∧ t.chk = s.chk ∧ t.rbuf = s.rbuf ∧ t.reqPort = s.reqPort ∧
    (t.phase = .busy → t.res = s.res ∧ t.resPort = s.resPort ∧ t.trace = s.trace ∧ t.trspPort = s.trspPort) ∧
    (t.phase = .idle → t.treq = none ∧ t.resPort = s.resPort ++ [t.res] ∧
      ∃ xs, t.trace = s.trace ++ [{ request := s.req, exchanges := xs, result := t.res }])

/-- R75, R104: the reads leave the latch, the packet buffer, the accumulator and the waiting requests as they are; the
read buffer changes only on an answer with `ok = 1`, and then to its bytes. The read buffer's clause is the model's
(log entry 17, DEDUCED from R16 and R122), and that registers keep their values after the end (log entry 13, DESIGN
CHOICE). -/
def Obligations.ReadFrame : Prop :=
  ∀ (ho : Option Handle) (chip : Chip) (addr : Addr) (n : Nat) (e : Bytes) (s t : State) (i : Instr),
    i = .rawRead ho chip addr n ∨ i = .readResponse ho n ∨ i = .readBlock ho addr n ∨ i = .verifyBlock ho addr e →
    exec i s = .next t →
    t.req = s.req ∧ t.pkt = s.pkt ∧ t.pktLen = s.pktLen ∧ t.chk = s.chk ∧ t.reqPort = s.reqPort ∧
    (t.rbuf = s.rbuf ∨ ∃ a, s.trspPort = a :: t.trspPort ∧ a.ok = true ∧ t.rbuf = a.data) ∧
    (t.phase = .busy → t.rbuf = s.rbuf ∧ t.res = s.res ∧ t.resPort = s.resPort ∧ t.trace = s.trace ∧
      t.trspPort = s.trspPort) ∧
    (t.phase = .idle → t.treq = none ∧ t.resPort = s.resPort ++ [t.res] ∧
      ∃ xs, t.trace = s.trace ++ [{ request := s.req, exchanges := xs, result := t.res }])

/-- R14, R75: SEND_COMMAND and the packet rows leave the latch, the read buffer, the waiting requests and the bytes of
`PKT` at `PKT_LEN` and above as they are. The packet rows' part is the model's choice (log entry 1); so are those bytes of
`PKT`, which R14 only calls not used (log entry 17, DEDUCED), and registers kept after the end (log entry 13). -/
def Obligations.SendFrame : Prop :=
  ∀ (ho : Option Handle) (c h l k : Byte) (v : Option Value) (s t : State) (i : Instr),
    i = .sendCommand ho c v ∨ i = .ddcPkt4 c k ∨ i = .ddcPkt6 c h l k → exec i s = .next t →
    t.req = s.req ∧ t.rbuf = s.rbuf ∧ t.reqPort = s.reqPort ∧
    (∀ j : Fin 6, t.pktLen.toNat ≤ j.val → t.pkt[j] = s.pkt[j]) ∧
    (t.phase = .busy → t.res = s.res ∧ t.resPort = s.resPort ∧ t.trace = s.trace ∧ t.trspPort = s.trspPort) ∧
    (t.phase = .idle → t.treq = none ∧ t.resPort = s.resPort ++ [t.res] ∧
      ∃ xs, t.trace = s.trace ++ [{ request := s.req, exchanges := xs, result := t.res }])

/-! ## Failures and results -/

/-- R100, R108: a block operation above 4096 bytes ends with SIZE_PRECONDITION whatever its handle, before any transport
call; a length of 4096 passes the check. Before the handle is R108's decision D8 (log entry 19, DEDUCED). -/
def Obligations.OversizeBlockFailsBeforeHandleAndChannel : Prop :=
  (∀ n, sizeOk n = true ↔ n ≤ 4096) ∧ (∀ k, kindCode k = kindCode .sizePrecondition → k = .sizePrecondition) ∧
  ∀ (s : State) (r : Req) (rest : List Req), s.phase = .idle → s.reqPort = r :: rest →
    (r.op = 4#3 ∧ 4096 < r.payload.length ∨ r.op = 5#3 ∧ 4096 < r.len ∨ r.op = 6#3 ∧ 4096 < r.payload.length) →
    ∃ t, step s = .next t ∧ t.phase = .idle ∧ t.treq = none ∧ t.trspPort = s.trspPort ∧
      t.res = earlyFailure .sizePrecondition ∧
      t.trace = s.trace ++ [{ request := r, exchanges := [], result := earlyFailure .sizePrecondition }]

/-- R76, R121: with the handle absent no operation calls the channel, and those the size check lets through report
UNAVAILABLE_HANDLE. -/
def Obligations.AbsentHandleNeverReachesTheChannel : Prop :=
  ∀ (s : State) (r : Req) (rest : List Req), s.phase = .idle → s.reqPort = r :: rest → r.handlePresent = false →
    ∃ t k, step s = .next t ∧ t.phase = .idle ∧ t.treq = none ∧ t.trspPort = s.trspPort ∧
      t.trace = s.trace ++ [{ request := r, exchanges := [], result := earlyFailure k }] ∧
      (r.op ≠ 7#3 → oversize r = false → k = .unavailableHandle)

/-- R73, R77, R107: a step makes at most one transport call: it takes at most the oldest answer, and the operation it
ends has at most one exchange, with that answer. Derived from these rules: the result of the failing answer, and the block
IDLE with no call outstanding after it, are in `EveryRequestFollowsTheFailureMatrix` and `OneResultPerRequest`. -/
def Obligations.AtMostOneTransportCall : Prop :=
  ∀ s t : State, step s = .next t →
    (t.trspPort = s.trspPort ∧ (t.trace = s.trace ∨ ∃ r res, t.trace = s.trace ++ [{ request := r, exchanges := [], result := res }])) ∨
    (∃ a r call res, s.trspPort = a :: t.trspPort ∧
      t.trace = s.trace ++ [{ request := r, exchanges := [{ call := call, answer := a }], result := res }])

/-- R127, R133: the failure matrix. A request on which one of the first three conditions holds reports the first of them
and makes no transport call; any other emits the call R32 gives it, waits BUSY while there is no answer, and with an
answer ends with the matrix's last two columns. It rests on the spec's own decisions D8 (size before handle), D11 and D12
(the addresses of the reads); log entry 19. -/
def Obligations.EveryRequestFollowsTheFailureMatrix : Prop :=
  ∀ (s : State) (r : Req) (rest : List Req), s.phase = .idle → s.reqPort = r :: rest →
    (∀ k, earlyResult r = some k →
      ∃ t, step s = .next t ∧ t.phase = .idle ∧ t.trspPort = s.trspPort ∧ t.res = earlyFailure k ∧
        t.trace = s.trace ++ [{ request := r, exchanges := [], result := earlyFailure k }]) ∧
    (earlyResult r = none → s.trspPort = [] →
      ∃ t, step s = .next t ∧ t.phase = .busy ∧ t.req = r ∧ t.treq = some (requestCall r) ∧ t.trace = s.trace ∧
        t.resPort = s.resPort) ∧
    (∀ a as, earlyResult r = none → s.trspPort = a :: as → contractKept (requestCall r) a →
      ∃ t, step s = .next t ∧ t.phase = .idle ∧ t.trspPort = as ∧ t.res = matrixResult r a ∧
        t.trace = s.trace ++
          [{ request := r, exchanges := [{ call := requestCall r, answer := a }], result := matrixResult r a }])

/-- R126: the codes of `kind` are 0 to 5, one each; and of every request that ends in one step, `ok = 1` exactly when
the kind is OK, the number of transport calls is the kind's, and the kind is one the operation raises. The numbers are R126's own decision D6, ILLEGAL_REQUEST is R125's
D3 (log entry 19). -/
def Obligations.ResultKindsAreThoseOfTheTable : Prop :=
  (kindCode .ok = 0#3 ∧ kindCode .unavailableHandle = 1#3 ∧ kindCode .transportFailure = 2#3 ∧
    kindCode .sizePrecondition = 3#3 ∧ kindCode .verifyMismatch = 4#3 ∧ kindCode .illegalRequest = 5#3) ∧
  ∀ (s t : State) (r : Req) (rest : List Req) (rec : OpRecord), s.phase = .idle → s.reqPort = r :: rest →
    step s = .next t → t.trace = s.trace ++ [rec] →
    (rec.result.ok = true ↔ rec.result.kind = .ok) ∧
    rec.exchanges.length = (if rec.result.kind = .ok ∨ rec.result.kind = .transportFailure ∨
      rec.result.kind = .verifyMismatch then 1 else 0) ∧
    (rec.result.kind = .sizePrecondition → r.op = 4#3 ∨ r.op = 5#3 ∨ r.op = 6#3) ∧
    (rec.result.kind = .verifyMismatch → r.op = 6#3) ∧
    (rec.result.kind = .illegalRequest ↔ r.op = 7#3)

/-- R109 (b): VERIFY_BLOCK is matched exactly when its one read succeeds and returns exactly the expected bytes. -/
def Obligations.VerifyMatchesExactlyOnEqualBytes : Prop :=
  ∀ (s t : State) (h : Option Handle) (addr : Addr) (e : Bytes), exec (.verifyBlock h addr e) s = .next t →
    t.phase = .idle →
    (t.res.ok = true ↔ ∃ x a, h = some x ∧ e.length ≤ 4096 ∧ s.trspPort = a :: t.trspPort ∧ a.ok = true ∧ a.data = e)

/-- R109 (c): the same VERIFY_BLOCK request issued twice, the channel answering the same twice, leaves the same record
twice. -/
def Obligations.VerifyTwiceGivesTheSameRecord : Prop :=
  ∀ (s t : State) (r : Req) (rest : List Req) (a : TRsp) (as : List TRsp), s.phase = .idle → r.op = 6#3 →
    s.reqPort = r :: r :: rest → s.trspPort = a :: a :: as → step s = .next t →
    ∃ u rec, t.trace = s.trace ++ [rec] ∧ step t = .next u ∧ u.trace = s.trace ++ [rec, rec] ∧ u.reqPort = rest

/-! ## The whole machine -/

/-- The state after reset is good. `State.good` holds the model's own clause of log entry 1 and rests on log entry 19, as
`StepKeepsTheStateGood` says. -/
def Obligations.ResetStateIsGood : Prop := State.reset.good

/-- Every step keeps a state good: the phase keeps its promise about the TREQ port, and every record in the trace is one
the failure matrix allows, with exactly the transport call its request calls for (R12, R20, R32, R127, R133). The clause
for BUSY with no call outstanding, a SEND_COMMAND framed in `PKT`, is the model's own state and no rule's (log entry 1,
DESIGN CHOICE). Conformity rests on the spec's own decisions D8 (size before handle), D11 and D12 (the addresses of the
reads); log entry 19. -/
def Obligations.StepKeepsTheStateGood : Prop :=
  ∀ s t : State, s.good → step s = .next t → t.good

/-- R42, R144: no step loses, reorders or merges a request: those finished, the one in flight and those waiting are the
same sequence before and after; a request presented, in either phase, is the last of it. -/
def Obligations.StepKeepsTheOrderOfRequests : Prop :=
  (∀ s t : State, step s = .next t → t.requestOrder = s.requestOrder) ∧
  ∀ (r : Req) (s : State), (presentRequest r s).requestOrder = s.requestOrder ++ [r]

/-- R20, R40: every answer is taken once, in order, by the operation it is recorded with. -/
def Obligations.StepKeepsTheOrderOfAnswers : Prop :=
  ∀ s t : State, step s = .next t → t.answerOrder = s.answerOrder

/-- R20: exactly one result per accepted request: a step either ends no operation, or ends one and delivers its result. -/
def Obligations.OneResultPerRequest : Prop :=
  ∀ s t : State, step s = .next t →
    (t.trace = s.trace ∧ t.resPort = s.resPort) ∨
    (∃ rec, t.trace = s.trace ++ [rec] ∧ t.resPort = s.resPort ++ [rec.result] ∧ t.res = rec.result ∧ t.phase = .idle ∧
      t.treq = none)

/-- R10: two identical requests that receive identical transport answers give identical results and make the same
transport call, whatever ran before: the other state of the block has no influence. -/
def Obligations.OperationDependsOnRequestAndAnswerAlone : Prop :=
  ∀ (s u : State) (r : Req) (rs qs : List Req) (a : TRsp) (as bs : List TRsp), s.phase = .idle → u.phase = .idle →
    s.reqPort = r :: rs → u.reqPort = r :: qs → s.trspPort = a :: as → u.trspPort = a :: bs →
    (∃ e, step s = .refused e ∧ step u = .refused e) ∨
    (∃ t w rec, step s = .next t ∧ step u = .next w ∧ t.trace = s.trace ++ [rec] ∧ w.trace = u.trace ++ [rec] ∧
      t.res = rec.result ∧ w.res = rec.result)

/-- R21, R70, R122: a handle is passed through unchanged and never inspected, and a status code is carried through
uninterpreted: a step commutes with every renaming of handles and codes. -/
def Obligations.HandlesAndCodesAreNeverInspected : Prop :=
  ∀ (f : Handle → Handle) (g : Code → Code) (s : State), step (s.rename f g) = renameOut f g (step s)
end

