-- ==== Sys2Proof/Laws/Operands.lean ====
section
/-! SUPPORT. The operand arithmetic: the size check, the seed, the checksum on any packet, the two frames. -/

namespace Sys2Proof.Machine

/-- R100: the size check is the comparison with 4096. -/
theorem sizeOk_iff (n : Nat) : sizeOk n = true ↔ n ≤ 4096 := by
  unfold sizeOk
  exact decide_eq_true_iff

/-- R34: the value of two bytes is `high*256 + low`. -/
theorem joinValue_toNat (hi lo : Byte) : (joinValue hi lo).toNat = hi.toNat * 256 + lo.toNat := by
  have h := lo.isLt
  simp only [joinValue, BitVec.toNat_append]
  rw [← Nat.shiftLeft_add_eq_or_of_lt h, Nat.shiftLeft_eq]

/-- R83: the seed's value. -/
theorem chkSeed_eq : Config.chkSeed = 0x3F#8 := by decide

@[simp] theorem xorAll_nil (x : Byte) : xorAll x [] = x := rfl

@[simp] theorem xorAll_cons (x b : Byte) (p : Bytes) : xorAll x (b :: p) = xorAll (x ^^^ b) p := rfl

@[simp] theorem xorAll_append (x : Byte) (p q : Bytes) : xorAll x (p ++ q) = xorAll (xorAll x p) q := by
  simp [xorAll]

/-- The checksum of a packet written as its bytes before the last, and the last. -/
theorem checksum_append (body : Bytes) (b : Byte) : checksum (body ++ [b]) = body ++ [xorAll Config.chkSeed body] := by
  simp [checksum, checksumByte]

/-- The frame of a body without a value. -/
theorem frame_none (c : Byte) : frame (buildBody c none) = [0x82#8, 0x01#8, c, 0x00#8] := by
  simp [frame, buildBody, headerByte, Config.hdrFlag, Config.placeholder]

/-- The frame of a body with a value. -/
theorem frame_some (c : Byte) (v : Value) :
    frame (buildBody c (some v)) = [0x84#8, 0x03#8, c, highByte v, lowByte v, 0x00#8] := by
  simp [frame, buildBody, headerByte, Config.hdrFlag, Config.placeholder]

end Sys2Proof.Machine
end

