-- ==== Sys2Proof/Laws/State.lean ====
section
/-! SUPPORT. One lemma per field per register update of Machine/Ops.lean, so that no proof unfolds a record update. -/

namespace Sys2Proof.Machine

variable (s : State)

@[simp] theorem State.accept_phase (r : Req) (rest : List Req) : (s.accept r rest).phase = .busy := rfl
@[simp] theorem State.accept_req (r : Req) (rest : List Req) : (s.accept r rest).req = r := rfl
@[simp] theorem State.accept_pkt (r : Req) (rest : List Req) : (s.accept r rest).pkt = s.pkt := rfl
@[simp] theorem State.accept_pktLen (r : Req) (rest : List Req) : (s.accept r rest).pktLen = s.pktLen := rfl
@[simp] theorem State.accept_chk (r : Req) (rest : List Req) : (s.accept r rest).chk = s.chk := rfl
@[simp] theorem State.accept_rbuf (r : Req) (rest : List Req) : (s.accept r rest).rbuf = s.rbuf := rfl
@[simp] theorem State.accept_res (r : Req) (rest : List Req) : (s.accept r rest).res = s.res := rfl
@[simp] theorem State.accept_reqPort (r : Req) (rest : List Req) : (s.accept r rest).reqPort = rest := rfl
@[simp] theorem State.accept_treq (r : Req) (rest : List Req) : (s.accept r rest).treq = s.treq := rfl
@[simp] theorem State.accept_trspPort (r : Req) (rest : List Req) : (s.accept r rest).trspPort = s.trspPort := rfl
@[simp] theorem State.accept_resPort (r : Req) (rest : List Req) : (s.accept r rest).resPort = s.resPort := rfl
@[simp] theorem State.accept_trace (r : Req) (rest : List Req) : (s.accept r rest).trace = s.trace := rfl

@[simp] theorem State.setChk_phase (b : Byte) : (s.setChk b).phase = s.phase := rfl
@[simp] theorem State.setChk_req (b : Byte) : (s.setChk b).req = s.req := rfl
@[simp] theorem State.setChk_pkt (b : Byte) : (s.setChk b).pkt = s.pkt := rfl
@[simp] theorem State.setChk_pktLen (b : Byte) : (s.setChk b).pktLen = s.pktLen := rfl
@[simp] theorem State.setChk_chk (b : Byte) : (s.setChk b).chk = b := rfl
@[simp] theorem State.setChk_rbuf (b : Byte) : (s.setChk b).rbuf = s.rbuf := rfl
@[simp] theorem State.setChk_res (b : Byte) : (s.setChk b).res = s.res := rfl
@[simp] theorem State.setChk_reqPort (b : Byte) : (s.setChk b).reqPort = s.reqPort := rfl
@[simp] theorem State.setChk_treq (b : Byte) : (s.setChk b).treq = s.treq := rfl
@[simp] theorem State.setChk_trspPort (b : Byte) : (s.setChk b).trspPort = s.trspPort := rfl
@[simp] theorem State.setChk_resPort (b : Byte) : (s.setChk b).resPort = s.resPort := rfl
@[simp] theorem State.setChk_trace (b : Byte) : (s.setChk b).trace = s.trace := rfl

@[simp] theorem State.setRbuf_phase (data : Bytes) : (s.setRbuf data).phase = s.phase := rfl
@[simp] theorem State.setRbuf_req (data : Bytes) : (s.setRbuf data).req = s.req := rfl
@[simp] theorem State.setRbuf_pkt (data : Bytes) : (s.setRbuf data).pkt = s.pkt := rfl
@[simp] theorem State.setRbuf_pktLen (data : Bytes) : (s.setRbuf data).pktLen = s.pktLen := rfl
@[simp] theorem State.setRbuf_chk (data : Bytes) : (s.setRbuf data).chk = s.chk := rfl
@[simp] theorem State.setRbuf_rbuf (data : Bytes) : (s.setRbuf data).rbuf = data := rfl
@[simp] theorem State.setRbuf_res (data : Bytes) : (s.setRbuf data).res = s.res := rfl
@[simp] theorem State.setRbuf_reqPort (data : Bytes) : (s.setRbuf data).reqPort = s.reqPort := rfl
@[simp] theorem State.setRbuf_treq (data : Bytes) : (s.setRbuf data).treq = s.treq := rfl
@[simp] theorem State.setRbuf_trspPort (data : Bytes) : (s.setRbuf data).trspPort = s.trspPort := rfl
@[simp] theorem State.setRbuf_resPort (data : Bytes) : (s.setRbuf data).resPort = s.resPort := rfl
@[simp] theorem State.setRbuf_trace (data : Bytes) : (s.setRbuf data).trace = s.trace := rfl

@[simp] theorem State.dropAnswer_phase (rest : List TRsp) : (s.dropAnswer rest).phase = s.phase := rfl
@[simp] theorem State.dropAnswer_req (rest : List TRsp) : (s.dropAnswer rest).req = s.req := rfl
@[simp] theorem State.dropAnswer_pkt (rest : List TRsp) : (s.dropAnswer rest).pkt = s.pkt := rfl
@[simp] theorem State.dropAnswer_pktLen (rest : List TRsp) : (s.dropAnswer rest).pktLen = s.pktLen := rfl
@[simp] theorem State.dropAnswer_chk (rest : List TRsp) : (s.dropAnswer rest).chk = s.chk := rfl
@[simp] theorem State.dropAnswer_rbuf (rest : List TRsp) : (s.dropAnswer rest).rbuf = s.rbuf := rfl
@[simp] theorem State.dropAnswer_res (rest : List TRsp) : (s.dropAnswer rest).res = s.res := rfl
@[simp] theorem State.dropAnswer_reqPort (rest : List TRsp) : (s.dropAnswer rest).reqPort = s.reqPort := rfl
@[simp] theorem State.dropAnswer_treq (rest : List TRsp) : (s.dropAnswer rest).treq = s.treq := rfl
@[simp] theorem State.dropAnswer_trspPort (rest : List TRsp) : (s.dropAnswer rest).trspPort = rest := rfl
@[simp] theorem State.dropAnswer_resPort (rest : List TRsp) : (s.dropAnswer rest).resPort = s.resPort := rfl
@[simp] theorem State.dropAnswer_trace (rest : List TRsp) : (s.dropAnswer rest).trace = s.trace := rfl

@[simp] theorem State.await_phase (t : TReq) : (s.await t).phase = .busy := rfl
@[simp] theorem State.await_req (t : TReq) : (s.await t).req = s.req := rfl
@[simp] theorem State.await_pkt (t : TReq) : (s.await t).pkt = s.pkt := rfl
@[simp] theorem State.await_pktLen (t : TReq) : (s.await t).pktLen = s.pktLen := rfl
@[simp] theorem State.await_chk (t : TReq) : (s.await t).chk = s.chk := rfl
@[simp] theorem State.await_rbuf (t : TReq) : (s.await t).rbuf = s.rbuf := rfl
@[simp] theorem State.await_res (t : TReq) : (s.await t).res = s.res := rfl
@[simp] theorem State.await_reqPort (t : TReq) : (s.await t).reqPort = s.reqPort := rfl
@[simp] theorem State.await_treq (t : TReq) : (s.await t).treq = some t := rfl
@[simp] theorem State.await_trspPort (t : TReq) : (s.await t).trspPort = s.trspPort := rfl
@[simp] theorem State.await_resPort (t : TReq) : (s.await t).resPort = s.resPort := rfl
@[simp] theorem State.await_trace (t : TReq) : (s.await t).trace = s.trace := rfl

@[simp] theorem State.setPkt_phase (p : Bytes) (n : PktLen) : (s.setPkt p n).phase = s.phase := rfl
@[simp] theorem State.setPkt_req (p : Bytes) (n : PktLen) : (s.setPkt p n).req = s.req := rfl
@[simp] theorem State.setPkt_pkt (p : Bytes) (n : PktLen) : (s.setPkt p n).pkt = Vector.ofFn (fun i : Fin 6 => p.getD i.val s.pkt[i]) := rfl
@[simp] theorem State.setPkt_pktLen (p : Bytes) (n : PktLen) : (s.setPkt p n).pktLen = n := rfl
@[simp] theorem State.setPkt_chk (p : Bytes) (n : PktLen) : (s.setPkt p n).chk = s.chk := rfl
@[simp] theorem State.setPkt_rbuf (p : Bytes) (n : PktLen) : (s.setPkt p n).rbuf = s.rbuf := rfl
@[simp] theorem State.setPkt_res (p : Bytes) (n : PktLen) : (s.setPkt p n).res = s.res := rfl
@[simp] theorem State.setPkt_reqPort (p : Bytes) (n : PktLen) : (s.setPkt p n).reqPort = s.reqPort := rfl
@[simp] theorem State.setPkt_treq (p : Bytes) (n : PktLen) : (s.setPkt p n).treq = s.treq := rfl
@[simp] theorem State.setPkt_trspPort (p : Bytes) (n : PktLen) : (s.setPkt p n).trspPort = s.trspPort := rfl
@[simp] theorem State.setPkt_resPort (p : Bytes) (n : PktLen) : (s.setPkt p n).resPort = s.resPort := rfl
@[simp] theorem State.setPkt_trace (p : Bytes) (n : PktLen) : (s.setPkt p n).trace = s.trace := rfl

@[simp] theorem State.complete_phase (xs : List Exchange) (r : Res) : (s.complete xs r).phase = .idle := rfl
@[simp] theorem State.complete_req (xs : List Exchange) (r : Res) : (s.complete xs r).req = s.req := rfl
@[simp] theorem State.complete_pkt (xs : List Exchange) (r : Res) : (s.complete xs r).pkt = s.pkt := rfl
@[simp] theorem State.complete_pktLen (xs : List Exchange) (r : Res) : (s.complete xs r).pktLen = s.pktLen := rfl
@[simp] theorem State.complete_chk (xs : List Exchange) (r : Res) : (s.complete xs r).chk = s.chk := rfl
@[simp] theorem State.complete_rbuf (xs : List Exchange) (r : Res) : (s.complete xs r).rbuf = s.rbuf := rfl
@[simp] theorem State.complete_res (xs : List Exchange) (r : Res) : (s.complete xs r).res = r := rfl
@[simp] theorem State.complete_reqPort (xs : List Exchange) (r : Res) : (s.complete xs r).reqPort = s.reqPort := rfl
@[simp] theorem State.complete_treq (xs : List Exchange) (r : Res) : (s.complete xs r).treq = none := rfl
@[simp] theorem State.complete_trspPort (xs : List Exchange) (r : Res) : (s.complete xs r).trspPort = s.trspPort := rfl
@[simp] theorem State.complete_resPort (xs : List Exchange) (r : Res) : (s.complete xs r).resPort = s.resPort ++ [r] := rfl
@[simp] theorem State.complete_trace (xs : List Exchange) (r : Res) : (s.complete xs r).trace = s.trace ++ [⟨s.req, xs, r⟩] := rfl

end Sys2Proof.Machine
end

