-- ==== Sys2Proof/Laws/Ops.lean ====
section
/-! SUPPORT. What each shared operation can do, said once: `takeAnswer`, `callChannel`, the gate, the transmit steps, and
then `exec` as a whole. -/

namespace Sys2Proof.Machine

/-- `raise` always answers: the operation ends with no exchange and the named kind. -/
@[simp] theorem raise_eq (k : Kind) (s : State) : raise k s = .next (s.complete [] (failureRes k none)) := rfl

/-- A write's answer ends the operation. -/
theorem takeAnswer_write {t : TReq} (h : t.write = true) (f : Finish) (a : TRsp) (s : State) :
    takeAnswer t f a s = .next (s.complete [⟨t, a⟩] (answerRes f a)) := by
  simp [takeAnswer, h]

/-- A read's failing answer ends the operation; `RBUF` keeps its bytes. -/
theorem takeAnswer_read_fail {t : TReq} (h : t.write = false) (f : Finish) {a : TRsp} (ha : a.ok = false) (s : State) :
    takeAnswer t f a s = .next (s.complete [⟨t, a⟩] (answerRes f a)) := by
  simp [takeAnswer, h, ha]

/-- A read answered with the bytes asked for ends the operation, the bytes in `RBUF`. -/
theorem takeAnswer_read_ok {t : TReq} (h : t.write = false) (f : Finish) {a : TRsp} (ha : a.ok = true)
    (hl : a.data.length = t.len) (s : State) :
    takeAnswer t f a s = .next ((s.setRbuf a.data).complete [⟨t, a⟩] (answerRes f a)) := by
  simp [takeAnswer, h, ha, hl]

/-- A read answered with another number of bytes is refused. -/
theorem takeAnswer_read_breach {t : TReq} (h : t.write = false) (f : Finish) {a : TRsp} (ha : a.ok = true)
    (hl : a.data.length ≠ t.len) (s : State) : takeAnswer t f a s = .refused .answerBreaksContract := by
  simp [takeAnswer, h, ha, hl]

/-- Everything `takeAnswer` can do. -/
theorem takeAnswer_cases (t : TReq) (f : Finish) (a : TRsp) (s : State) :
    (takeAnswer t f a s = .next (s.complete [⟨t, a⟩] (answerRes f a)) ∧ (t.write = true ∨ a.ok = false)) ∨
    (takeAnswer t f a s = .next ((s.setRbuf a.data).complete [⟨t, a⟩] (answerRes f a)) ∧ t.write = false ∧ a.ok = true ∧
      a.data.length = t.len) ∨
    (takeAnswer t f a s = .refused .answerBreaksContract ∧ t.write = false ∧ a.ok = true ∧ a.data.length ≠ t.len) := by
  cases hw : t.write
  · cases ha : a.ok
    · exact .inl ⟨takeAnswer_read_fail hw f ha s, .inr rfl⟩
    · by_cases hl : a.data.length = t.len
      · exact .inr (.inl ⟨takeAnswer_read_ok hw f ha hl s, rfl, rfl, hl⟩)
      · exact .inr (.inr ⟨takeAnswer_read_breach hw f ha hl s, rfl, rfl, hl⟩)
  · exact .inl ⟨takeAnswer_write hw f a s, .inl rfl⟩

/-- With no answer yet the call is emitted and the block waits. -/
theorem callChannel_silent (t : TReq) (f : Finish) {s : State} (h : s.trspPort = []) :
    callChannel t f s = .next (s.await t) := by
  simp [callChannel, h]

/-- With an answer there, it is taken at once. -/
theorem callChannel_answered (t : TReq) (f : Finish) {s : State} {a : TRsp} {rest : List TRsp}
    (h : s.trspPort = a :: rest) : callChannel t f s = takeAnswer t f a (s.dropAnswer rest) := by
  simp [callChannel, h]

/-- The gate's write, handle absent. -/
@[simp] theorem gatedWrite_none (chip : Chip) (addr : Addr) (p : Bytes) (s : State) :
    gatedWrite none chip addr p s = raise .unavailableHandle s := rfl

/-- The gate's write, handle present. -/
theorem gatedWrite_some (h : Handle) (chip : Chip) (addr : Addr) (p : Bytes) (s : State) :
    gatedWrite (some h) chip addr p s = callChannel ⟨true, h, chip, addr, p.length, p⟩ .report s := rfl

/-- The gate's read, handle absent. -/
@[simp] theorem gatedRead_none (chip : Chip) (addr : Addr) (n : Nat) (f : Finish) (s : State) :
    gatedRead none chip addr n f s = raise .unavailableHandle s := rfl

/-- The gate's read, handle present. -/
theorem gatedRead_some (h : Handle) (chip : Chip) (addr : Addr) (n : Nat) (f : Finish) (s : State) :
    gatedRead (some h) chip addr n f s = callChannel ⟨false, h, chip, addr, n, []⟩ f s := rfl

/-- `resume` with the channel silent is the stuck state. -/
theorem resume_silent (t : TReq) {s : State} (h : s.trspPort = []) : resume t s = .fault .noTransportAnswer := by
  simp [resume, h]

/-- `resume` with an answer there takes it. -/
theorem resume_answered (t : TReq) {s : State} {a : TRsp} {rest : List TRsp} (h : s.trspPort = a :: rest) :
    resume t s = takeAnswer t (finishOf s.req t) a (s.dropAnswer rest) := by
  simp [resume, h]

/-- How an operation can go on from the state `u` its own registers are written in: it ends before any call, or emits
its call `t` and waits, or takes the oldest answer to it. -/
def ranFrom (u : State) (o : Out) : Prop :=
  (∃ k, o = raise k u) ∨ ∃ t f, o = callChannel t f u

/-- Everything an instruction can do: from the state itself, or from the state with `PKT`, `PKT_LEN` and `CHK` written,
it ends, waits or takes an answer. -/
theorem exec_ran (i : Instr) (s : State) :
    ranFrom s (exec i s) ∨ ∃ p n b, ranFrom ((s.setPkt p n).setChk b) (exec i s) := by
  have write : ∀ ho chip addr p (u : State), ranFrom u (gatedWrite ho chip addr p u) := by
    intro ho chip addr p u
    cases ho
    · exact .inl ⟨_, rfl⟩
    · exact .inr ⟨_, _, rfl⟩
  have read : ∀ ho chip addr n f (u : State), ranFrom u (gatedRead ho chip addr n f u) := by
    intro ho chip addr n f u
    cases ho
    · exact .inl ⟨_, rfl⟩
    · exact .inr ⟨_, _, rfl⟩
  cases i with
  | rawWrite => exact .inl (write ..)
  | rawRead => exact .inl (read ..)
  | sendCommand => exact .inr ⟨_, _, _, write ..⟩
  | readResponse => exact .inl (read ..)
  | writeBlock ho addr p =>
    left
    simp only [exec, execWriteBlock]
    split
    · exact write ..
    · exact .inl ⟨_, rfl⟩
  | readBlock ho addr n =>
    left
    simp only [exec, execReadBlock]
    split
    · exact read ..
    · exact .inl ⟨_, rfl⟩
  | verifyBlock ho addr e =>
    left
    simp only [exec, execVerifyBlock]
    split
    · exact read ..
    · exact .inl ⟨_, rfl⟩
  | reserved7 => exact .inl (.inl ⟨_, rfl⟩)
  | ddcPkt4 => exact .inr ⟨_, _, _, write ..⟩
  | ddcPkt6 => exact .inr ⟨_, _, _, write ..⟩

/-- No operation faults, and the one refusal is a broken contract. -/
theorem ranFrom_outcome {u : State} {o : Out} (h : ranFrom u o) :
    (∃ k, o = .next (u.complete [] (failureRes k none))) ∨
    (∃ t, u.trspPort = [] ∧ o = .next (u.await t)) ∨
    (∃ t a rest r, u.trspPort = a :: rest ∧ (o = .next ((u.dropAnswer rest).complete [⟨t, a⟩] r) ∨
      a.ok = true ∧ o = .next (((u.dropAnswer rest).setRbuf a.data).complete [⟨t, a⟩] r))) ∨
    o = .refused .answerBreaksContract := by
  obtain ⟨k, rfl⟩ | ⟨t, f, rfl⟩ := h
  · exact .inl ⟨k, rfl⟩
  · cases hp : u.trspPort with
    | nil => exact .inr (.inl ⟨t, rfl, callChannel_silent t f hp⟩)
    | cons a rest =>
      rw [callChannel_answered t f hp]
      obtain ⟨h, -⟩ | ⟨h, -, ha, -⟩ | ⟨h, -⟩ := takeAnswer_cases t f a (u.dropAnswer rest)
      · exact .inr (.inr (.inl ⟨t, a, rest, _, rfl, .inl h⟩))
      · exact .inr (.inr (.inl ⟨t, a, rest, _, rfl, .inr ⟨ha, h⟩⟩))
      · exact .inr (.inr (.inr h))

/-- No instruction faults. -/
theorem exec_never_faults (i : Instr) (s : State) (e : Fault) : exec i s ≠ .fault e := by
  intro he
  obtain h | ⟨p, n, b, h⟩ := exec_ran i s <;>
  · obtain ⟨k, h⟩ | ⟨t, -, h⟩ | ⟨t, a, rest, r, -, h | ⟨-, h⟩⟩ | h := ranFrom_outcome h <;> rw [he] at h <;> cases h

/-- Everything an instruction that answers a next state can do: with at most `PKT`, `PKT_LEN` and `CHK` written first, it
ends with no exchange, or waits for the answer to its call, or ends with the one exchange of the oldest answer. -/
theorem exec_next_cases {i : Instr} {s t : State} (h : exec i s = .next t) :
    ∃ u : State, u.phase = s.phase ∧ u.req = s.req ∧ u.rbuf = s.rbuf ∧ u.res = s.res ∧ u.reqPort = s.reqPort ∧
      u.treq = s.treq ∧ u.trspPort = s.trspPort ∧ u.resPort = s.resPort ∧ u.trace = s.trace ∧
      ((∃ k, t = u.complete [] (failureRes k none)) ∨ (∃ q, u.trspPort = [] ∧ t = u.await q) ∨
       (∃ q a rest r, u.trspPort = a :: rest ∧ (t = (u.dropAnswer rest).complete [⟨q, a⟩] r ∨
         a.ok = true ∧ t = ((u.dropAnswer rest).setRbuf a.data).complete [⟨q, a⟩] r))) := by
  obtain hh | ⟨p, n, b, hh⟩ := exec_ran i s
  · refine ⟨s, rfl, rfl, rfl, rfl, rfl, rfl, rfl, rfl, rfl, ?_⟩
    obtain ⟨k, h'⟩ | ⟨q, hq, h'⟩ | ⟨q, a, rest, r, hq, h' | ⟨ha, h'⟩⟩ | h' := ranFrom_outcome hh <;>
      rw [h] at h' <;> cases h'
    · exact .inl ⟨k, rfl⟩
    · exact .inr (.inl ⟨q, hq, rfl⟩)
    · exact .inr (.inr ⟨q, a, rest, r, hq, .inl rfl⟩)
    · exact .inr (.inr ⟨q, a, rest, r, hq, .inr ⟨ha, rfl⟩⟩)
  · refine ⟨(s.setPkt p n).setChk b, rfl, rfl, rfl, rfl, rfl, rfl, rfl, rfl, rfl, ?_⟩
    obtain ⟨k, h'⟩ | ⟨q, hq, h'⟩ | ⟨q, a, rest, r, hq, h' | ⟨ha, h'⟩⟩ | h' := ranFrom_outcome hh <;>
      rw [h] at h' <;> cases h'
    · exact .inl ⟨k, rfl⟩
    · exact .inr (.inl ⟨q, hq, rfl⟩)
    · exact .inr (.inr ⟨q, a, rest, r, hq, .inl rfl⟩)
    · exact .inr (.inr ⟨q, a, rest, r, hq, .inr ⟨ha, rfl⟩⟩)

end Sys2Proof.Machine
end

