-- ==== Sys2Proof/Laws/PerInstr.lean ====
section
/-! SUPPORT. Per-instruction laws: the family `RowPattern`, one lemma per constructor. -/

namespace Sys2Proof.Laws.RowPattern

/-- The bits of the encoding that the opcode table numbers match the instruction's row: its mask and its pattern. -/
def Statement (i : Instr) : Prop := tableBits (encode i) &&& (tableRow i).mask = (tableRow i).pattern

theorem rawWrite (h : Option Handle) (chip : Chip) (addr : Addr) (p : Bytes) : Statement (.rawWrite h chip addr p) := by
  cases h <;> simp [Statement, encode, Req.withHandle, Req.zero, tableBits, tableRow]

theorem rawRead (h : Option Handle) (chip : Chip) (addr : Addr) (n : Nat) : Statement (.rawRead h chip addr n) := by
  cases h <;> simp [Statement, encode, Req.withHandle, Req.zero, tableBits, tableRow]

theorem sendCommand (h : Option Handle) (c : Byte) (v : Option Value) : Statement (.sendCommand h c v) := by
  cases h <;> cases v <;> simp [Statement, encode, Req.withHandle, Req.withValue, Req.zero, tableBits, tableRow]

theorem readResponse (h : Option Handle) (n : Nat) : Statement (.readResponse h n) := by
  cases h <;> simp [Statement, encode, Req.withHandle, Req.zero, tableBits, tableRow]

theorem writeBlock (h : Option Handle) (addr : Addr) (p : Bytes) : Statement (.writeBlock h addr p) := by
  cases h <;> simp [Statement, encode, Req.withHandle, Req.zero, tableBits, tableRow]

theorem readBlock (h : Option Handle) (addr : Addr) (n : Nat) : Statement (.readBlock h addr n) := by
  cases h <;> simp [Statement, encode, Req.withHandle, Req.zero, tableBits, tableRow]

theorem verifyBlock (h : Option Handle) (addr : Addr) (e : Bytes) : Statement (.verifyBlock h addr e) := by
  cases h <;> simp [Statement, encode, Req.withHandle, Req.zero, tableBits, tableRow]

theorem reserved7 : Statement .reserved7 := rfl

/-- A number whose low `k` bits are free matches a mask of the bits above them. -/
theorem land_high (hi lo k m : Nat) (h : lo < 2 ^ k) (hm : hi < 2 ^ m) :
    (hi * 2 ^ k + lo) &&& ((2 ^ m - 1) * 2 ^ k) = hi * 2 ^ k := by
  apply Nat.eq_of_testBit_eq
  intro j
  rw [Nat.testBit_and, Nat.mul_comm hi, Nat.mul_comm (2 ^ m - 1), Nat.testBit_two_pow_mul_add _ h,
    Nat.testBit_two_pow_mul, Nat.testBit_two_pow_mul, Nat.testBit_two_pow_sub_one]
  by_cases hj : j < k
  · simp [hj, Nat.not_le.mpr hj]
  · have hk : k ≤ j := Nat.le_of_not_lt hj
    by_cases hmj : j - k < m
    · simp [hj, hk, hmj]
    · have : hi.testBit (j - k) = false :=
        Nat.testBit_lt_two_pow (lt_of_lt_of_le hm (Nat.pow_le_pow_right (by decide) (Nat.le_of_not_lt hmj)))
      simp [hk, this]

theorem ddcPkt4 (c k : Byte) : Statement (.ddcPkt4 c k) := by
  have hc := c.isLt
  have hk := k.isLt
  have h := land_high 0x8201 (c.toNat * 256 + k.toNat) 16 16 (by omega) (by decide)
  simp only [Statement, encode, tableBits, packetNumber, tableRow, List.foldl, BitVec.toNat_ofNat]
  refine Eq.trans (congrArg₂ _ ?_ ?_) (h.trans ?_) <;> omega

theorem ddcPkt6 (c h l k : Byte) : Statement (.ddcPkt6 c h l k) := by
  have hc := c.isLt
  have hh := h.isLt
  have hl := l.isLt
  have hk := k.isLt
  have e := land_high 0x8403 (((c.toNat * 256 + h.toNat) * 256 + l.toNat) * 256 + k.toNat) 32 16 (by omega) (by decide)
  simp only [Statement, encode, tableBits, packetNumber, tableRow, List.foldl, BitVec.toNat_ofNat]
  refine Eq.trans (congrArg₂ _ ?_ ?_) (e.trans ?_) <;> omega

end Sys2Proof.Laws.RowPattern
end

