-- ==== Sys2Proof/Laws/Step.lean ====
section
/-! SUPPORT. The fetch and the step, case by case. -/

namespace Sys2Proof.Machine

/-- IDLE with a request presented: it is accepted. -/
theorem fetch_idle_cons {s : State} {r : Req} {rest : List Req} (h : s.phase = .idle) (hr : s.reqPort = r :: rest) :
    s.fetch = some (.request r, s.accept r rest) := by
  simp [State.fetch, h, hr]

/-- IDLE with no request presented: nothing to fetch. -/
theorem fetch_idle_nil {s : State} (h : s.phase = .idle) (hr : s.reqPort = []) : s.fetch = none := by
  simp [State.fetch, h, hr]

/-- BUSY with a call outstanding: nothing to fetch. -/
theorem fetch_busy_some {s : State} {t : TReq} (h : s.phase = .busy) (ht : s.treq = some t) : s.fetch = none := by
  simp [State.fetch, h, ht]

/-- BUSY with no call outstanding: the framed packet. -/
theorem fetch_busy_none {s : State} (h : s.phase = .busy) (ht : s.treq = none) :
    s.fetch = some (.packet s.pktBytes, s) := by
  simp [State.fetch, h, ht]

/-- The step that accepts a request runs it. -/
theorem step_request {s : State} {r : Req} {rest : List Req} (h : s.phase = .idle) (hr : s.reqPort = r :: rest) :
    step s = exec (decodeRequest r) (s.accept r rest) := by
  simp [step, fetch_idle_cons h hr, decode]

/-- The step with a call outstanding resumes it. -/
theorem step_resume {s : State} {t : TReq} (h : s.phase = .busy) (ht : s.treq = some t) : step s = resume t s := by
  simp [step, fetch_busy_some h ht, stepWithoutFetch, h, ht]

/-- The idle step. -/
theorem step_idle {s : State} (h : s.phase = .idle) (hr : s.reqPort = []) : step s = .next s := by
  simp [step, fetch_idle_nil h hr, stepWithoutFetch, h]

/-- The step in the middle of a SEND_COMMAND. -/
theorem step_packet {s : State} (h : s.phase = .busy) (ht : s.treq = none) :
    step s = match decodePacket s.pktBytes with
      | .ok i => exec i s
      | .error e => .refused (.undecodablePacket e) := by
  cases hd : decodePacket s.pktBytes <;> simp [step, fetch_busy_none h ht, decode, hd]

/-- Everything a step that answers a next state can do: it idles, or, from the state `u` with the oldest request accepted
or the one in flight still latched, it ends the operation with no exchange, or waits, or ends it with one exchange. -/
theorem step_next_cases {s t : State} (h : step s = .next t) :
    (s.phase = .idle ∧ s.reqPort = [] ∧ t = s) ∨
    ∃ u : State, u.phase = .busy ∧ u.rbuf = s.rbuf ∧ u.res = s.res ∧
      ((s.phase = .idle ∧ s.reqPort = u.req :: u.reqPort) ∨ (s.phase = .busy ∧ u.req = s.req ∧ u.reqPort = s.reqPort)) ∧
      u.trspPort = s.trspPort ∧ u.resPort = s.resPort ∧ u.trace = s.trace ∧
      ((∃ k, t = u.complete [] (failureRes k none)) ∨ (∃ q, u.trspPort = [] ∧ t = u.await q) ∨
       (∃ q a rest r, u.trspPort = a :: rest ∧ (t = (u.dropAnswer rest).complete [⟨q, a⟩] r ∨
         a.ok = true ∧ t = ((u.dropAnswer rest).setRbuf a.data).complete [⟨q, a⟩] r))) := by
  cases hp : s.phase with
  | idle =>
    cases hr : s.reqPort with
    | nil => rw [step_idle hp hr] at h; cases h; exact .inl ⟨rfl, rfl, rfl⟩
    | cons r rest =>
      rw [step_request hp hr] at h
      obtain ⟨u, h1, h2, h3, h4, h5, h6, h7, h8, h9, h10⟩ := exec_next_cases h
      refine .inr ⟨u, h1, h3, h4, .inl ⟨rfl, ?_⟩, h7, h8, h9, h10⟩
      rw [h2, h5]; rfl
  | busy =>
    cases ht : s.treq with
    | none =>
      rw [step_packet hp ht] at h
      split at h
      · obtain ⟨u, h1, h2, h3, h4, h5, h6, h7, h8, h9, h10⟩ := exec_next_cases h
        exact .inr ⟨u, h1.trans hp, h3, h4, .inr ⟨rfl, h2, h5⟩, h7, h8, h9, h10⟩
      · cases h
    | some q =>
      rw [step_resume hp ht] at h
      refine .inr ⟨s, hp, rfl, rfl, .inr ⟨rfl, rfl, rfl⟩, rfl, rfl, rfl, ?_⟩
      cases hq : s.trspPort with
      | nil => rw [resume_silent q hq] at h; cases h
      | cons a rest =>
        rw [resume_answered q hq] at h
        obtain ⟨h', -⟩ | ⟨h', -, ha, -⟩ | ⟨h', -⟩ := takeAnswer_cases q (finishOf s.req q) a (s.dropAnswer rest) <;>
          rw [h'] at h <;> cases h
        · exact .inr (.inr ⟨q, a, rest, _, rfl, .inl rfl⟩)
        · exact .inr (.inr ⟨q, a, rest, _, rfl, .inr ⟨ha, rfl⟩⟩)

end Sys2Proof.Machine
end

