-- ==== Sys2Proof/Tests/Slice0.lean ====
section
/-! SUPPORT. Tests: words and vectors written out from spec/30_encoding.md and spec/95_test_vectors.md, the smoke test of
`wellFormed`, and a witness for the hypotheses of every statement that has some. -/

namespace Sys2Proof.Tests

open Sys2Proof.Machine

/-! ## Fixtures: a present handle, a failing code, a SCRIPT channel's answers, a block after reset with requests -/

def hdl : Handle := Config.someHandle 7
def codeE : Code := Config.someCode 5
def okWith (d : Bytes) : TRsp := { ok := true, code := Config.someCode 0, data := d }
def failE : TRsp := { ok := false, code := codeE, data := [] }

/-- After reset, with requests presented and answers scripted. -/
def block (rs : List Req) (as : List TRsp) : State := { State.reset with reqPort := rs, trspPort := as }

/-- The next state, where there is one. -/
def nextOf (o : Out) : Option State :=
  match o with
  | .next s => some s
  | .fault _ => none
  | .refused _ => none

/-- A request with a present handle, other fields zero. -/
def req (op : BitVec 3) : Req := { Req.zero op with handlePresent := true, handle := hdl }

/-- The result and the exchanges of one step's finished operation. -/
def ended (o : Out) : Option (Res × List Exchange) :=
  match nextOf o with
  | some t => t.trace.getLast?.map (fun rec => (rec.result, rec.exchanges))
  | none => none

/-! ## `wellFormed` refuses a wrong check byte (R62; 95_test_vectors.md S1: the literal reading's `AF` for the packet of
command 0x10) -/

theorem test_wellFormed_pkt4_right : wellFormed (.ddcPkt4 0x10#8 0xAC#8) = true := by decide
theorem test_wellFormed_pkt4_wrong : wellFormed (.ddcPkt4 0x10#8 0xAF#8) = false := by decide
theorem test_wellFormed_pkt6_right : wellFormed (.ddcPkt6 0x10#8 0x12#8 0x34#8 0x8E#8) = true := by decide
theorem test_wellFormed_pkt6_wrong : wellFormed (.ddcPkt6 0x10#8 0x12#8 0x34#8 0x8F#8) = false := by decide

/-! ## Decoding: every constructor from its encoding (R52, R53, R60, R61; 95_test_vectors.md P1 to P5) -/

theorem test_decode_rawWrite :
    decode (.request { req 0#3 with chip := 0x37#7, addr := 0x51#32, payload := [0x01#8], len := 9 }) =
      .ok (.rawWrite (some hdl) 0x37#7 0x51#32 [0x01#8]) := by rfl
theorem test_decode_rawRead :
    decode (.request { Req.zero 1#3 with chip := 0x37#7, len := 1 }) = .ok (.rawRead none 0x37#7 0#32 1) := by decide
theorem test_decode_sendCommand :
    decode (.request { req 2#3 with command := 0x10#8, hasValue := true, value := 0x0032#16 }) =
      .ok (.sendCommand (some hdl) 0x10#8 (some 0x0032#16)) := by rfl
theorem test_decode_sendCommand_value_ignored :
    decode (.request { req 2#3 with command := 0x10#8, value := 0x1234#16 }) =
      .ok (.sendCommand (some hdl) 0x10#8 none) := by rfl
theorem test_decode_readResponse :
    decode (.request { req 3#3 with len := 11, addr := 0x51#32 }) = .ok (.readResponse (some hdl) 11) := by rfl
theorem test_decode_writeBlock :
    decode (.request { req 4#3 with addr := 0x1000#32, payload := [0x5A#8], chip := 0x50#7 }) =
      .ok (.writeBlock (some hdl) 0x1000#32 [0x5A#8]) := by rfl
theorem test_decode_readBlock :
    decode (.request { req 5#3 with addr := 0x1000#32, len := 256 }) = .ok (.readBlock (some hdl) 0x1000#32 256) := by
  rfl
theorem test_decode_verifyBlock :
    decode (.request { req 6#3 with addr := 0x2000#32, payload := [0x01#8, 0x02#8] }) =
      .ok (.verifyBlock (some hdl) 0x2000#32 [0x01#8, 0x02#8]) := by rfl
theorem test_decode_reserved7 : decode (.request (req 7#3)) = .ok .reserved7 := by decide
theorem test_decode_pkt4 : decode (.packet [0x82#8, 0x01#8, 0x10#8, 0xAC#8]) = .ok (.ddcPkt4 0x10#8 0xAC#8) := by decide
theorem test_decode_pkt6 :
    decode (.packet [0x84#8, 0x03#8, 0x10#8, 0x00#8, 0x32#8, 0x9A#8]) = .ok (.ddcPkt6 0x10#8 0x00#8 0x32#8 0x9A#8) := by
  decide
theorem test_decode_bad_header : decode (.packet [0x81#8, 0x01#8, 0x10#8, 0xAF#8]) = .error (.headerByte 0x81#8) := by
  decide
theorem test_decode_bad_length_byte :
    decode (.packet [0x84#8, 0x01#8, 0x10#8, 0x00#8, 0x32#8, 0x9A#8]) = .error (.lengthByte 0x01#8) := by decide
theorem test_decode_bad_length : decode (.packet [0x83#8, 0x02#8, 0x10#8, 0x00#8, 0x00#8]) = .error (.packetLength 5) := by
  decide
theorem test_tableWord_selector : decodeTableWord 8 3 = some (.readResponse none 0) := by decide
theorem test_tableWord_pkt4 : decodeTableWord 32 0x820160DC = some (.ddcPkt4 0x60#8 0xDC#8) := by decide
theorem test_tableWord_pkt6 : decodeTableWord 48 0x8403D600046A = some (.ddcPkt6 0xD6#8 0x00#8 0x04#8 0x6A#8) := by
  decide

/-! ## One step each (95_test_vectors.md V1 to V5) -/

theorem test_rawWrite_unframed :
    ended (step (block [{ req 0#3 with chip := 0x50#7, payload := [0x01#8, 0x02#8, 0x03#8] }] [okWith []])) =
      some (⟨true, .ok, none, []⟩,
        [⟨⟨true, hdl, 0x50#7, 0#32, 3, [0x01#8, 0x02#8, 0x03#8]⟩, okWith []⟩]) := by rfl
theorem test_rawWrite_absent :
    ended (step (block [{ Req.zero 0#3 with payload := [0x01#8] }] [okWith []])) =
      some (⟨false, .unavailableHandle, none, []⟩, []) := by decide
theorem test_rawRead_extremes :
    ended (step (block [{ req 1#3 with chip := 0x7F#7, addr := 0xFFFFFFFF#32, len := 2 }] [okWith [0xDE#8, 0xAD#8]])) =
      some (⟨true, .ok, none, [0xDE#8, 0xAD#8]⟩,
        [⟨⟨false, hdl, 0x7F#7, 0xFFFFFFFF#32, 2, []⟩, okWith [0xDE#8, 0xAD#8]⟩]) := by rfl
theorem test_rawRead_fails :
    ended (step (block [{ req 1#3 with chip := 0x37#7, len := 1 }] [failE])) =
      some (⟨false, .transportFailure, some codeE, []⟩, [⟨⟨false, hdl, 0x37#7, 0#32, 1, []⟩, failE⟩]) := by rfl
theorem test_sendCommand_query :
    ended (step (block [{ req 2#3 with command := 0x10#8 }] [okWith []])) =
      some (⟨true, .ok, none, []⟩,
        [⟨⟨true, hdl, 0x37#7, 0x51#32, 4, [0x82#8, 0x01#8, 0x10#8, 0xAC#8]⟩, okWith []⟩]) := by rfl
theorem test_sendCommand_value :
    ended (step (block [{ req 2#3 with command := 0x10#8, hasValue := true, value := 0x1234#16 }] [failE])) =
      some (⟨false, .transportFailure, some codeE, []⟩,
        [⟨⟨true, hdl, 0x37#7, 0x51#32, 6, [0x84#8, 0x03#8, 0x10#8, 0x12#8, 0x34#8, 0x8E#8]⟩, failE⟩]) := by rfl
theorem test_readResponse_unexamined :
    ended (step (block [{ req 3#3 with len := 4 }] [okWith [0#8, 0#8, 0#8, 0#8]])) =
      some (⟨true, .ok, none, [0#8, 0#8, 0#8, 0#8]⟩,
        [⟨⟨false, hdl, 0x37#7, 0#32, 4, []⟩, okWith [0#8, 0#8, 0#8, 0#8]⟩]) := by rfl
theorem test_readResponse_no_size_check :
    (nextOf (step (block [{ req 3#3 with len := 5000 }] []))).map (fun t => (t.phase, t.treq)) =
      some (.busy, some ⟨false, hdl, 0x37#7, 0#32, 5000, []⟩) := by rfl
theorem test_writeBlock_one :
    ended (step (block [{ req 4#3 with addr := 0x1000#32, payload := [0x5A#8] }] [okWith []])) =
      some (⟨true, .ok, none, []⟩, [⟨⟨true, hdl, 0x37#7, 0x1000#32, 1, [0x5A#8]⟩, okWith []⟩]) := by rfl
theorem test_writeBlock_4097 (p : Bytes) (hp : p.length = 4097) :
    ended (step (block [{ Req.zero 4#3 with payload := p }] [])) =
      some (⟨false, .sizePrecondition, none, []⟩, []) := by
  simp [hp, ended, nextOf, step, State.fetch, block, State.reset, Req.zero, decode, decodeRequest, exec, execWriteBlock, sizeOk,
    Config.maxBlock, raise, State.complete, State.accept, failureRes]
theorem test_readBlock_4096 :
    (nextOf (step (block [{ req 5#3 with addr := 0x1000#32, len := 4096 }] []))).map (fun t => t.treq) =
      some (some ⟨false, hdl, 0x37#7, 0x1000#32, 4096, []⟩) := by rfl
theorem test_readBlock_4097 :
    ended (step (block [{ Req.zero 5#3 with len := 4097 }] [okWith []])) =
      some (⟨false, .sizePrecondition, none, []⟩, []) := by decide
theorem test_verifyBlock_matched :
    ended (step (block [{ req 6#3 with addr := 0x2000#32, payload := [0x01#8, 0x02#8] }] [okWith [0x01#8, 0x02#8]])) =
      some (⟨true, .ok, none, []⟩, [⟨⟨false, hdl, 0x37#7, 0x2000#32, 2, []⟩, okWith [0x01#8, 0x02#8]⟩]) := by rfl
theorem test_verifyBlock_last_byte :
    ended (step (block [{ req 6#3 with addr := 0x2000#32, payload := [0x01#8, 0x02#8] }] [okWith [0x01#8, 0x03#8]])) =
      some (⟨false, .verifyMismatch, none, []⟩,
        [⟨⟨false, hdl, 0x37#7, 0x2000#32, 2, []⟩, okWith [0x01#8, 0x03#8]⟩]) := by rfl
theorem test_reserved7 :
    ended (step (block [req 7#3] [okWith []])) = some (⟨false, .illegalRequest, none, []⟩, []) := by decide

/-- A framed packet still holding its placeholder, its handle present, no answer yet. -/
def framed4 : State :=
  (({ State.reset with req := req 2#3 } : State).withFetchWord 32 0x82011000)

def framed6 : State :=
  (({ State.reset with req := req 2#3 } : State).withFetchWord 48 0x840310003200)

theorem test_ddcPkt4_transmits :
    (nextOf (step framed4)).map (fun t => t.treq) =
      some (some ⟨true, hdl, 0x37#7, 0x51#32, 4, [0x82#8, 0x01#8, 0x10#8, 0xAC#8]⟩) := by rfl
theorem test_ddcPkt6_transmits :
    (nextOf (step framed6)).map (fun t => t.treq) =
      some (some ⟨true, hdl, 0x37#7, 0x51#32, 6, [0x84#8, 0x03#8, 0x10#8, 0x00#8, 0x32#8, 0x9A#8]⟩) := by rfl

/-- A block waiting for the answer to a VERIFY_BLOCK's read. -/
def waiting (as : List TRsp) : State :=
  { State.reset with phase := .busy, req := { req 6#3 with payload := [0x01#8] },
                     treq := some ⟨false, hdl, 0x37#7, 0#32, 1, []⟩, trspPort := as }

theorem test_resume_mismatch :
    ended (step (waiting [okWith [0x02#8]])) =
      some (⟨false, .verifyMismatch, none, []⟩, [⟨⟨false, hdl, 0x37#7, 0#32, 1, []⟩, okWith [0x02#8]⟩]) := by rfl
theorem test_short_answer_refused :
    step (waiting [okWith []]) = .refused .answerBreaksContract := by rfl
theorem test_stuck : step (waiting []) = .fault .noTransportAnswer := by rfl

/-! ## Witnesses: the hypotheses of each statement, met together -/

theorem witness_StepRunsTheOldestRequest :
    (block [req 2#3] []).phase = .idle ∧ (block [req 2#3] []).reqPort = req 2#3 :: [] := ⟨rfl, rfl⟩
theorem witness_StepRunsTheFramedPacket :
    framed4.phase = .busy ∧ framed4.treq = none ∧
      decode (.packet (framed4.pkt.toList.take framed4.pktLen.toNat)) = .ok (.ddcPkt4 0x10#8 0x00#8) := by decide
theorem witness_IdleStepWithoutRequestChangesNothing : State.reset.phase = .idle ∧ State.reset.reqPort = [] := by decide
theorem witness_StuckExactlyWhileTheChannelIsSilent :
    (waiting []).phase = .busy ∧ (waiting []).treq ≠ none ∧ (waiting []).trspPort = [] := by decide
theorem witness_BusyBlockAcceptsNoRequest :
    (waiting [okWith [0x01#8]]).phase = .busy ∧ ∃ t, step (waiting [okWith [0x01#8]]) = .next t := ⟨by decide, _, rfl⟩
/-- The clause for a block that stays BUSY: a framed packet emitted, no answer yet. -/
theorem witness_BusyBlockAcceptsNoRequest_stays :
    framed4.phase = .busy ∧ ∃ t, step framed4 = .next t ∧ t.phase = .busy := ⟨by decide, _, rfl, rfl⟩
theorem witness_LateAnswerEndsAsAnEarlyOne :
    ∃ t, step (block [req 2#3] []) = .next t ∧ t.phase = .busy ∧ (block [req 2#3] []).trspPort = [] := ⟨_, rfl, rfl, rfl⟩
theorem witness_AnswerEndsTheWaitingOperation :
    (waiting [okWith [0x01#8]]).phase = .busy ∧
      (waiting [okWith [0x01#8]]).treq = some (requestCall (waiting []).req) ∧ earlyResult (waiting []).req = none ∧
      (okWith [0x01#8]).data.length = (requestCall (waiting []).req).len := ⟨rfl, rfl, rfl, rfl⟩
theorem witness_ResetRefusedWhileBusy : (waiting []).phase = .busy ∧ State.reset.phase = .idle := by decide
theorem witness_PlacedTableWordRuns :
    decodeTableWord 8 7 = some .reserved7 ∧ decodeTableWord 32 0x82010000 = some (.ddcPkt4 0x00#8 0x00#8) := by decide
theorem witness_DecodeOfEncodeIsTheInstruction :
    wellFormed (.ddcPkt4 0xBC#8 0x00#8) = true ∧ wellFormed (.readBlock (some hdl) 0#32 4097) = true := by decide
theorem witness_DecodedPacketEncodesToItsBytes :
    decode (.packet [0x82#8, 0x01#8, 0xFF#8, 0x43#8]) = .ok (.ddcPkt4 0xFF#8 0x43#8) := by decide
theorem witness_ProduciblePacketsAreExactlyThese :
    packet 0xFF#8 (some 0xFFFF#16) = [0x84#8, 0x03#8, 0xFF#8, 0xFF#8, 0xFF#8, 0x47#8] ∧
      packet 0xBC#8 none = [0x82#8, 0x01#8, 0xBC#8, 0x00#8] := by decide
theorem witness_IgnoredFieldsHaveNoEffect :
    sameOperands { req 2#3 with value := 0x1234#16, addr := 0x51#32 } (req 2#3) ∧
      sameOperands { Req.zero 3#3 with handle := hdl, command := 0x10#8 } (Req.zero 3#3) ∧
      sameOperands (req 7#3) (Req.zero 7#3) := by
  refine ⟨?_, ?_, ?_⟩ <;> simp [sameOperands, req, Req.zero, Req.serviceHandle]
theorem witness_ChecksumReplacesOnlyTheLastByte : [0x01#8, 0x02#8].Perm [0x02#8, 0x01#8] := by decide
theorem witness_Outcome_silent : (block [] []).trspPort = [] := by decide
theorem witness_Outcome_failing : (block [] [failE]).trspPort = failE :: [] ∧ failE.ok = false := ⟨rfl, rfl⟩
theorem witness_Outcome_bytes :
    (block [] [okWith [0x01#8]]).trspPort = okWith [0x01#8] :: [] ∧ (okWith [0x01#8]).ok = true ∧
      (okWith [0x01#8]).data.length = 1 := ⟨rfl, rfl, rfl⟩
theorem witness_Outcome_selectors :
    (req 0#3).op = 0#3 ∧ (req 1#3).op = 1#3 ∧ (req 2#3).op = 2#3 ∧ (req 3#3).op = 3#3 ∧ (req 4#3).op = 4#3 ∧
      (req 5#3).op = 5#3 ∧ (req 6#3).op = 6#3 ∧ (req 7#3).op = 7#3 := by decide
/-- The size clauses of the block operations at their boundary. -/
theorem witness_BlockOutcome_sizes :
    (List.replicate 4096 0#8).length ≤ 4096 ∧ 4096 < (List.replicate 4097 0#8).length ∧ (4096 : Nat) ≤ 4096 ∧
      (4096 : Nat) < 4097 := by
  rw [List.length_replicate, List.length_replicate]
  decide
theorem witness_VerifyBlockOutcome_mismatch :
    (okWith [0x01#8]).ok = true ∧ (okWith [0x01#8]).data.length = [0x02#8].length ∧ (okWith [0x01#8]).data ≠ [0x02#8] ∧
      (okWith [0x02#8]).data = [0x02#8] := by decide
theorem witness_VerifyIsReadBlockThenCompare :
    ∃ t, exec (.readBlock (some hdl) 0#32 [0x02#8].length) (block [] [okWith [0x01#8]]) = .next t ∧ t.phase = .idle :=
  ⟨_, rfl, rfl⟩
theorem witness_PacketRowsTransmitTheirPacket :
    State.reset.req.handlePresent = false ∧ framed4.req.handlePresent = true ∧ framed4.trspPort = [] ∧
      (sendAnswer failE framed4).req.handlePresent = true ∧ (sendAnswer failE framed4).trspPort = failE :: [] :=
  ⟨rfl, rfl, rfl, rfl, rfl⟩
/-- A read answered with the bytes asked for, and one answered with another number of bytes. -/
theorem witness_EveryInstructionCompletes :
    readLength (.readBlock (some hdl) 0#32 1) = some 1 ∧ (okWith [0x01#8]).data.length = 1 ∧
      (block [] [okWith []]).trspPort = okWith [] :: [] ∧ (okWith []).ok = true ∧ (okWith []).data.length ≠ 1 :=
  ⟨rfl, rfl, rfl, rfl, by decide⟩
theorem witness_WriteFrame :
    ∃ t u, exec (.rawWrite (some hdl) 0#7 0#32 []) (block [] []) = .next t ∧ t.phase = .busy ∧
      exec (.writeBlock (some hdl) 0#32 []) (block [] [failE]) = .next u ∧ u.phase = .idle := ⟨_, _, rfl, rfl, rfl, rfl⟩
theorem witness_ReadFrame :
    ∃ t u, exec (.readResponse (some hdl) 11) (block [] []) = .next t ∧ t.phase = .busy ∧
      exec (.verifyBlock (some hdl) 0#32 [0x02#8]) (block [] [okWith [0x01#8]]) = .next u ∧ u.phase = .idle :=
  ⟨_, _, rfl, rfl, rfl, rfl⟩
theorem witness_SendFrame :
    ∃ t u, exec (.sendCommand (some hdl) 0x10#8 none) (block [] []) = .next t ∧ t.phase = .busy ∧
      exec (.ddcPkt6 0x10#8 0#8 0#8 0#8) framed6 = .next u ∧ u.phase = .busy := ⟨_, _, rfl, rfl, rfl, rfl⟩
/-- The clauses for an operation that has ended: a channel that answers, an absent handle. -/
theorem witness_SendFrame_ended :
    ∃ t u, exec (.sendCommand (some hdl) 0x10#8 none) (block [] [failE]) = .next t ∧ t.phase = .idle ∧
      exec (.ddcPkt4 0x10#8 0#8) State.reset = .next u ∧ u.phase = .idle := ⟨_, _, rfl, rfl, rfl, rfl⟩
theorem witness_OversizeBlockFailsBeforeHandleAndChannel :
    (block [{ req 5#3 with len := 4097 }] []).phase = .idle ∧
      (block [{ req 5#3 with len := 4097 }] []).reqPort = { req 5#3 with len := 4097 } :: [] ∧
      ({ req 5#3 with len := 4097 } : Req).op = 5#3 ∧ 4096 < ({ req 5#3 with len := 4097 } : Req).len :=
  ⟨rfl, rfl, rfl, by decide⟩
/-- A request of the given operation with a payload one byte above the limit. -/
def oversized (op : BitVec 3) : Req := { Req.zero op with payload := List.replicate 4097 0#8 }

/-- The clauses for WRITE_BLOCK and VERIFY_BLOCK. -/
theorem witness_OversizeBlockFailsBeforeHandleAndChannel_payload :
    (block [oversized 4#3, oversized 6#3] []).phase = .idle ∧
      (block [oversized 4#3, oversized 6#3] []).reqPort = oversized 4#3 :: [oversized 6#3] ∧
      (oversized 4#3).op = 4#3 ∧ 4096 < (oversized 4#3).payload.length ∧
      (block [oversized 6#3] []).reqPort = oversized 6#3 :: [] ∧
      (oversized 6#3).op = 6#3 ∧ 4096 < (oversized 6#3).payload.length :=
  have hl : 4096 < (List.replicate 4097 0#8).length := Nat.lt_of_lt_of_eq (by decide) List.length_replicate.symm
  ⟨rfl, rfl, rfl, hl, rfl, rfl, hl⟩
theorem witness_AbsentHandleNeverReachesTheChannel :
    (block [Req.zero 6#3] []).phase = .idle ∧ (block [Req.zero 6#3] []).reqPort = Req.zero 6#3 :: [] ∧
      (Req.zero 6#3).handlePresent = false ∧ (Req.zero 6#3).op ≠ 7#3 ∧ oversize (Req.zero 6#3) = false :=
  ⟨rfl, rfl, rfl, by decide, rfl⟩
theorem witness_AtMostOneTransportCall : ∃ t, step (block [req 0#3] [failE]) = .next t := ⟨_, rfl⟩
/-- One request for each clause of the matrix: a condition of R127 holds; none, channel silent; none, channel answers. -/
theorem witness_EveryRequestFollowsTheFailureMatrix :
    earlyResult (req 7#3) = some .illegalRequest ∧ earlyResult { req 5#3 with len := 4097 } = some .sizePrecondition ∧
      earlyResult (Req.zero 4#3) = some .unavailableHandle ∧ earlyResult { req 5#3 with len := 4096 } = none ∧
      earlyResult { req 3#3 with len := 1 } = none ∧
      (okWith [0x01#8]).data.length = (requestCall { req 3#3 with len := 1 }).len := by decide
theorem witness_ResultKindsAreThoseOfTheTable :
    ∃ t rec, step (block [req 2#3] [failE]) = .next t ∧ t.trace = (block [req 2#3] [failE]).trace ++ [rec] :=
  ⟨_, _, rfl, rfl⟩
theorem witness_VerifyMatchesExactlyOnEqualBytes :
    ∃ t, exec (.verifyBlock (some hdl) 0#32 [0x01#8]) (block [] [okWith [0x01#8]]) = .next t ∧ t.phase = .idle :=
  ⟨_, rfl, rfl⟩
theorem witness_VerifyTwiceGivesTheSameRecord :
    ∃ t, step (block [{ req 6#3 with payload := [0x01#8] }, { req 6#3 with payload := [0x01#8] }]
      [okWith [0x01#8], okWith [0x01#8]]) = .next t := ⟨_, rfl⟩
theorem witness_StepKeepsTheStateGood :
    (block [req 2#3] []).good ∧ ∃ t, step (block [req 2#3] []) = .next t :=
  ⟨⟨⟨fun _ => rfl, fun h => (by cases h), fun h => (by cases h)⟩, fun _ h => (by cases h)⟩, _, rfl⟩
theorem witness_StepKeepsTheOrderOfRequests : ∃ t, step (block [req 2#3, req 3#3] [okWith []]) = .next t := ⟨_, rfl⟩
theorem witness_OperationDependsOnRequestAndAnswerAlone :
    (block [req 2#3] [failE]).phase = .idle ∧ (block [req 2#3] [failE]).reqPort = req 2#3 :: [] ∧
      (block [req 2#3] [failE]).trspPort = failE :: [] ∧
      ({ block [req 2#3, req 7#3] [failE, failE] with chk := 0xFF#8, rbuf := [0x01#8] } : State).trspPort =
        failE :: [failE] := ⟨rfl, rfl, rfl, rfl⟩

/-! ## Laws used -/

/-- The row pattern of the packet rows on V1's and V2's words. -/
theorem test_row_pattern : Laws.RowPattern.Statement (.ddcPkt4 0x10#8 0xAC#8) := Laws.RowPattern.ddcPkt4 _ _

end Sys2Proof.Tests
end

section
/-! The packet SEND_COMMAND builds, in closed form (R84). -/

namespace Sys2Proof.Machine

/-- R83, R84: the check byte of a packet without a value. -/
theorem checksumByte_frame_none (c : Byte) : checksumByte (frame (buildBody c none)) = 0xBC#8 ^^^ c := by
  have hseed : 0x3F#8 ^^^ 0x82#8 ^^^ 0x01#8 = 0xBC#8 := by decide
  simp only [frame_none, checksumByte, List.dropLast, chkSeed_eq, xorAll_cons, xorAll_nil, hseed]

/-- R83, R84: the check byte of a packet with a value. -/
theorem checksumByte_frame_some (c : Byte) (v : Value) :
    checksumByte (frame (buildBody c (some v))) = 0xB8#8 ^^^ c ^^^ highByte v ^^^ lowByte v := by
  have hseed : 0x3F#8 ^^^ 0x84#8 ^^^ 0x03#8 = 0xB8#8 := by decide
  simp only [frame_some, checksumByte, List.dropLast, chkSeed_eq, xorAll_cons, xorAll_nil, hseed]

/-- R84: the packet is its closed form. -/
theorem packet_eq_closedPacket (c : Byte) (v : Option Value) : packet c v = closedPacket c v := by
  cases v with
  | none => rw [packet, checksum, checksumByte_frame_none, frame_none]; rfl
  | some v => rw [packet, checksum, checksumByte_frame_some, frame_some]; rfl

/-- Writing the bytes of a packet without a value leaves the last two bytes of `PKT` as they were (R14). -/
theorem setPkt_closedPacket_none (c : Byte) (s : State) :
    (s.setPkt (closedPacket c none) .four).setChk (0xBC#8 ^^^ c) = s.withPacket c none := rfl

/-- Writing the bytes of a packet with a value fills `PKT` (R14). -/
theorem setPkt_closedPacket_some (c : Byte) (v : Value) (s : State) :
    (s.setPkt (closedPacket c (some v)) .six).setChk (0xB8#8 ^^^ c ^^^ highByte v ^^^ lowByte v) =
      s.withPacket c (some v) := rfl

/-- R80: the registers SEND_COMMAND writes before its transport call are those of `State.withPacket`. -/
theorem setPkt_packet_setChk (c : Byte) (v : Option Value) (s : State) :
    (s.setPkt (packet c v) (if v.isSome then .six else .four)).setChk (checksumByte (frame (buildBody c v))) =
      s.withPacket c v := by
  rw [packet_eq_closedPacket]
  cases v with
  | none => rw [checksumByte_frame_none]; exact setPkt_closedPacket_none c s
  | some v => rw [checksumByte_frame_some]; exact setPkt_closedPacket_some c v s

end Sys2Proof.Machine
end

section
/-! The codec and the block operations as transfers of the raw transport (R2, R7). -/

namespace Sys2Proof.Machine

/-- R80, R86: SEND_COMMAND is the raw write of its packet, from the state with the packet in `PKT`. -/
theorem exec_sendCommand_eq_rawWrite (ho : Option Handle) (c : Byte) (v : Option Value) (s : State) :
    exec (.sendCommand ho c v) s = exec (.rawWrite ho 0x37#7 0x51#32 (closedPacket c v)) (s.withPacket c v) := by
  rw [← packet_eq_closedPacket, ← setPkt_packet_setChk]
  rfl

/-- R85: READ_RESPONSE is the raw read at offset 0. -/
theorem exec_readResponse_eq_rawRead (ho : Option Handle) (n : Nat) (s : State) :
    exec (.readResponse ho n) s = exec (.rawRead ho 0x37#7 0#32 n) s := rfl

/-- R101: WRITE_BLOCK within the size limit is the raw write. -/
theorem exec_writeBlock_eq_rawWrite (ho : Option Handle) (addr : Addr) {p : Bytes} (s : State) (hp : p.length ≤ 4096) :
    exec (.writeBlock ho addr p) s = exec (.rawWrite ho 0x37#7 addr p) s :=
  if_pos ((sizeOk_iff _).mpr hp)

/-- R102: READ_BLOCK within the size limit is the raw read. -/
theorem exec_readBlock_eq_rawRead (ho : Option Handle) (addr : Addr) {n : Nat} (s : State) (hn : n ≤ 4096) :
    exec (.readBlock ho addr n) s = exec (.rawRead ho 0x37#7 addr n) s :=
  if_pos ((sizeOk_iff _).mpr hn)

/-- Settles O29: the four operations' equations, one for each. -/
theorem operationsAreBuiltOnTheRawTransport : Obligations.OperationsAreBuiltOnTheRawTransport := by
  intro ho c v addr p n s
  exact ⟨exec_sendCommand_eq_rawWrite ho c v s, exec_readResponse_eq_rawRead ho n s,
    exec_writeBlock_eq_rawWrite ho addr s, exec_readBlock_eq_rawRead ho addr s⟩

end Sys2Proof.Machine
end

section
/-! What a request is run as: its meaning in the terms of the failure matrix (R127, R133) and of R32's table of transport
calls. -/

namespace Sys2Proof.Machine

/-! ### The decoder, one selector at a time (R52, R53) -/

/-- The selectors of R52. -/
theorem op_cases (op : BitVec 3) :
    op = 0#3 ∨ op = 1#3 ∨ op = 2#3 ∨ op = 3#3 ∨ op = 4#3 ∨ op = 5#3 ∨ op = 6#3 ∨ op = 7#3 := by
  revert op
  decide

theorem decodeRequest_rawWrite {r : Req} (h : r.op = 0#3) :
    decodeRequest r = .rawWrite r.serviceHandle r.chip r.addr r.payload := by
  simp [decodeRequest, h]

theorem decodeRequest_rawRead {r : Req} (h : r.op = 1#3) :
    decodeRequest r = .rawRead r.serviceHandle r.chip r.addr r.len := by
  simp [decodeRequest, h]

theorem decodeRequest_sendCommand {r : Req} (h : r.op = 2#3) :
    decodeRequest r = .sendCommand r.serviceHandle r.command r.optionalValue := by
  simp [decodeRequest, h]

theorem decodeRequest_readResponse {r : Req} (h : r.op = 3#3) :
    decodeRequest r = .readResponse r.serviceHandle r.len := by
  simp [decodeRequest, h]

theorem decodeRequest_writeBlock {r : Req} (h : r.op = 4#3) :
    decodeRequest r = .writeBlock r.serviceHandle r.addr r.payload := by
  simp [decodeRequest, h]

theorem decodeRequest_readBlock {r : Req} (h : r.op = 5#3) :
    decodeRequest r = .readBlock r.serviceHandle r.addr r.len := by
  simp [decodeRequest, h]

theorem decodeRequest_verifyBlock {r : Req} (h : r.op = 6#3) :
    decodeRequest r = .verifyBlock r.serviceHandle r.addr r.payload := by
  simp [decodeRequest, h]

theorem decodeRequest_reserved7 {r : Req} (h : r.op = 7#3) : decodeRequest r = .reserved7 := by
  simp [decodeRequest, h]

/-! ### The registers written before the transport call -/

@[simp] theorem State.withPacket_phase (s : State) (c : Byte) (v : Option Value) :
    (s.withPacket c v).phase = s.phase := by cases v <;> rfl
@[simp] theorem State.withPacket_req (s : State) (c : Byte) (v : Option Value) :
    (s.withPacket c v).req = s.req := by cases v <;> rfl
@[simp] theorem State.withPacket_rbuf (s : State) (c : Byte) (v : Option Value) :
    (s.withPacket c v).rbuf = s.rbuf := by cases v <;> rfl
@[simp] theorem State.withPacket_res (s : State) (c : Byte) (v : Option Value) :
    (s.withPacket c v).res = s.res := by cases v <;> rfl
@[simp] theorem State.withPacket_reqPort (s : State) (c : Byte) (v : Option Value) :
    (s.withPacket c v).reqPort = s.reqPort := by cases v <;> rfl
@[simp] theorem State.withPacket_treq (s : State) (c : Byte) (v : Option Value) :
    (s.withPacket c v).treq = s.treq := by cases v <;> rfl
@[simp] theorem State.withPacket_trspPort (s : State) (c : Byte) (v : Option Value) :
    (s.withPacket c v).trspPort = s.trspPort := by cases v <;> rfl
@[simp] theorem State.withPacket_resPort (s : State) (c : Byte) (v : Option Value) :
    (s.withPacket c v).resPort = s.resPort := by cases v <;> rfl
@[simp] theorem State.withPacket_trace (s : State) (c : Byte) (v : Option Value) :
    (s.withPacket c v).trace = s.trace := by cases v <;> rfl

/-- The bytes of `PKT` above the packet's length keep their values (R14; log entry 17). -/
theorem State.withPacket_pkt_above (s : State) (c : Byte) (v : Option Value) (j : Fin 6)
    (hj : (s.withPacket c v).pktLen.toNat ≤ j.val) : (s.withPacket c v).pkt[j] = s.pkt[j] := by
  cases v with
  | none =>
    have hj' : 4 ≤ j.val := hj
    obtain rfl | rfl : j = 4 ∨ j = 5 := by omega
    · rfl
    · rfl
  | some v =>
    have hj' : 6 ≤ j.val := hj
    omega

/-- The state in which the request `r`, accepted in `s`, reaches its gate: a SEND_COMMAND has its packet in `PKT` (R80),
any other request has written nothing. -/
def State.atGate (s : State) (r : Req) : State :=
  if r.op = 2#3 then s.withPacket r.command r.optionalValue else s

theorem State.atGate_sendCommand {r : Req} (h : r.op = 2#3) (s : State) :
    s.atGate r = s.withPacket r.command r.optionalValue := if_pos h

theorem State.atGate_other {r : Req} (h : r.op ≠ 2#3) (s : State) : s.atGate r = s := if_neg h

@[simp] theorem State.atGate_req (s : State) (r : Req) : (s.atGate r).req = s.req := by
  unfold State.atGate; split <;> simp
@[simp] theorem State.atGate_trspPort (s : State) (r : Req) : (s.atGate r).trspPort = s.trspPort := by
  unfold State.atGate; split <;> simp
@[simp] theorem State.atGate_trace (s : State) (r : Req) : (s.atGate r).trace = s.trace := by
  unfold State.atGate; split <;> simp

/-! ### The gate, on a request's handle pair (R70) -/

/-- The gate's write as a request issues it: its handle pair read as R21 says. -/
theorem gatedWrite_serviceHandle (r : Req) (chip : Chip) (addr : Addr) (p : Bytes) (s : State) :
    gatedWrite r.serviceHandle chip addr p s =
      if r.handlePresent then callChannel (writeCall r.handle chip addr p) .report s
      else raise .unavailableHandle s := by
  cases h : r.handlePresent <;> simp [Req.serviceHandle, h, gatedWrite_some, writeCall]

/-- The gate's read, in the same way. -/
theorem gatedRead_serviceHandle (r : Req) (chip : Chip) (addr : Addr) (n : Nat) (f : Finish) (s : State) :
    gatedRead r.serviceHandle chip addr n f s =
      if r.handlePresent then callChannel (readCall r.handle chip addr n) f s
      else raise .unavailableHandle s := by
  cases h : r.handlePresent <;> simp [Req.serviceHandle, h, gatedRead_some, readCall]

/-! ### A request runs as R127, R133 and R32 say -/

/-- What a request does when it runs: raise the first condition of R127 that holds, or make R32's call and end as the
latched request says. -/
def runRequest (r : Req) (s : State) : Out :=
  match earlyResult r with
  | some k => raise k (s.atGate r)
  | none => callChannel (requestCall r) (finishOf r (requestCall r)) (s.atGate r)

theorem runRequest_early {r : Req} {k : Kind} (h : earlyResult r = some k) (s : State) :
    runRequest r s = .next ((s.atGate r).complete [] (earlyFailure k)) := by
  simp [runRequest, h, failureRes, earlyFailure]

theorem runRequest_call {r : Req} (h : earlyResult r = none) (s : State) :
    runRequest r s = callChannel (requestCall r) (finishOf r (requestCall r)) (s.atGate r) := by
  simp [runRequest, h]

/-- A request whose operation has no size check meets the gate only. -/
theorem runRequest_noSizeCheck {r : Req} (h7 : r.op ≠ 7#3) (hl : lengthTested r = none) (s : State) :
    runRequest r s =
      if r.handlePresent then callChannel (requestCall r) (finishOf r (requestCall r)) (s.atGate r)
      else raise .unavailableHandle (s.atGate r) := by
  cases hp : r.handlePresent <;> simp [runRequest, earlyResult, oversize, h7, hl, hp]

/-- A block operation meets its size check, then the gate (R108). -/
theorem runRequest_sizeCheck {r : Req} {n : Nat} (h7 : r.op ≠ 7#3) (hl : lengthTested r = some n) (s : State) :
    runRequest r s =
      if sizeOk n then
        if r.handlePresent then callChannel (requestCall r) (finishOf r (requestCall r)) (s.atGate r)
        else raise .unavailableHandle (s.atGate r)
      else raise .sizePrecondition (s.atGate r) := by
  by_cases hn : n ≤ 4096
  · have hbig : ¬ 4096 < n := by omega
    cases hp : r.handlePresent <;> simp [runRequest, earlyResult, oversize, h7, hl, hp, hbig, (sizeOk_iff n).mpr hn]
  · have hbig : 4096 < n := by omega
    have hbad : sizeOk n = false := by rwa [← Bool.not_eq_true, sizeOk_iff]
    simp [runRequest, earlyResult, oversize, h7, hl, hbig, hbad]

/-- The meaning of the instruction a request decodes to is the failure matrix's. -/
theorem exec_decodeRequest (r : Req) (s : State) : exec (decodeRequest r) s = runRequest r s := by
  obtain h | h | h | h | h | h | h | h := op_cases r.op
  · rw [decodeRequest_rawWrite h, runRequest_noSizeCheck (by simp [h]) (by simp [lengthTested, h])]
    simp [exec, execRawWrite, gatedWrite_serviceHandle, requestCall, finishOf, writeCall, State.atGate, h]
  · rw [decodeRequest_rawRead h, runRequest_noSizeCheck (by simp [h]) (by simp [lengthTested, h])]
    simp [exec, execRawRead, gatedRead_serviceHandle, requestCall, finishOf, readCall, State.atGate, h]
  · rw [decodeRequest_sendCommand h, exec_sendCommand_eq_rawWrite,
      runRequest_noSizeCheck (by simp [h]) (by simp [lengthTested, h])]
    simp [exec, execRawWrite, gatedWrite_serviceHandle, requestCall, finishOf, writeCall, State.atGate, h]
  · rw [decodeRequest_readResponse h, exec_readResponse_eq_rawRead,
      runRequest_noSizeCheck (by simp [h]) (by simp [lengthTested, h])]
    simp [exec, execRawRead, gatedRead_serviceHandle, requestCall, finishOf, readCall, State.atGate, h]
  · rw [decodeRequest_writeBlock h,
      runRequest_sizeCheck (n := r.payload.length) (by simp [h]) (by simp [lengthTested, h])]
    simp [exec, execWriteBlock, gatedWrite_serviceHandle, requestCall, finishOf, writeCall, State.atGate, h,
      Config.ddcChipAddr]
  · rw [decodeRequest_readBlock h, runRequest_sizeCheck (n := r.len) (by simp [h]) (by simp [lengthTested, h])]
    simp [exec, execReadBlock, gatedRead_serviceHandle, requestCall, finishOf, readCall, State.atGate, h,
      Config.ddcChipAddr]
  · rw [decodeRequest_verifyBlock h,
      runRequest_sizeCheck (n := r.payload.length) (by simp [h]) (by simp [lengthTested, h])]
    simp [exec, execVerifyBlock, gatedRead_serviceHandle, requestCall, finishOf, readCall, State.atGate, h,
      Config.ddcChipAddr]
  · have hearly : earlyResult r = some .illegalRequest := by simp [earlyResult, h]
    rw [decodeRequest_reserved7 h, runRequest, hearly, State.atGate_other (by simp [h])]
    rfl

end Sys2Proof.Machine
end

section
/-! The packet rows are what is left of their SEND_COMMAND (log entry 1), and the step in the middle of one. -/

namespace Sys2Proof.Machine

theorem highByte_append (h l : Byte) : highByte (h ++ l) = h := BitVec.extractLsb'_append_eq_left

theorem lowByte_append (h l : Byte) : lowByte (h ++ l) = l := BitVec.extractLsb'_append_eq_right

/-- R81: the two bytes of a value, high first, are the value. -/
theorem highByte_append_lowByte (v : Value) : highByte v ++ lowByte v = v :=
  (BitVec.extractLsb'_append_extractLsb'_eq_extractLsb' rfl).trans BitVec.extractLsb'_eq_self

/-- DDC_PKT4 runs as the SEND_COMMAND that frames its packet, whatever stood in the check byte. -/
theorem exec_ddcPkt4_eq_sendCommand (c k : Byte) (s : State) :
    exec (.ddcPkt4 c k) s = exec (.sendCommand s.req.serviceHandle c none) s := by
  simp only [exec, execDdcPkt4, execSendCommand, frame_none]
  rfl

/-- DDC_PKT6 runs as the SEND_COMMAND that frames its packet. -/
theorem exec_ddcPkt6_eq_sendCommand (c h l k : Byte) (s : State) :
    exec (.ddcPkt6 c h l k) s = exec (.sendCommand s.req.serviceHandle c (some (h ++ l))) s := by
  simp only [exec, execDdcPkt6, execSendCommand, frame_some, highByte_append, lowByte_append]
  rfl

/-- Bytes that agree with a packet of the codec up to the check byte decode to the row that runs as its SEND_COMMAND. -/
theorem decodePacket_framed {p : Bytes} {c : Byte} {v : Option Value}
    (h : p.dropLast = (closedPacket c v).dropLast) :
    ∃ i, decodePacket p = .ok i ∧ ∀ s, exec i s = exec (.sendCommand s.req.serviceHandle c v) s := by
  have hne : p ≠ [] := by
    rintro rfl
    cases v <;> cases h
  have hp : p = (closedPacket c v).dropLast ++ [p.getLast hne] := by
    rw [← h, List.dropLast_append_getLast]
  rw [hp]
  cases v with
  | none => exact ⟨.ddcPkt4 c _, rfl, exec_ddcPkt4_eq_sendCommand c _⟩
  | some v =>
    refine ⟨.ddcPkt6 c (highByte v) (lowByte v) _, rfl, fun s => ?_⟩
    rw [exec_ddcPkt6_eq_sendCommand, highByte_append_lowByte]

/-- BUSY with a SEND_COMMAND's packet framed in `PKT` and no call emitted, the step runs the latched request. -/
theorem step_framed {s : State} (hp : s.phase = .busy) (ht : s.treq = none) (hop : s.req.op = 2#3)
    (hpkt : s.pktBytes.dropLast = (closedPacket s.req.command s.req.optionalValue).dropLast) :
    step s = runRequest s.req s := by
  obtain ⟨i, hi, hrun⟩ := decodePacket_framed hpkt
  rw [step_packet hp ht, hi, ← exec_decodeRequest, decodeRequest_sendCommand hop]
  exact hrun s

end Sys2Proof.Machine
end

section
/-! The phase's promise and the conformity of every record, kept by every step (R12, R20, R32, R127, R133). -/

namespace Sys2Proof.Machine

/-! ### An answer that keeps the channel's contract, and one that breaks it -/

/-- An answer that keeps the contract ends the operation; a successful read has its bytes in `RBUF`. -/
theorem takeAnswer_of_contractKept {t : TReq} {a : TRsp} (h : contractKept t a) (f : Finish) (s : State) :
    ∃ u, (u = s ∨ u = s.setRbuf a.data) ∧ takeAnswer t f a s = .next (u.complete [⟨t, a⟩] (answerRes f a)) := by
  obtain ⟨ht, -⟩ | ⟨ht, -⟩ | ⟨-, hw, ha, hl⟩ := takeAnswer_cases t f a s
  · exact ⟨s, .inl rfl, ht⟩
  · exact ⟨_, .inr rfl, ht⟩
  · exact absurd (h hw ha) hl

/-- An answer that breaks the contract is refused (U4). -/
theorem takeAnswer_of_not_contractKept {t : TReq} {a : TRsp} (h : ¬ contractKept t a) (f : Finish) (s : State) :
    takeAnswer t f a s = .refused .answerBreaksContract := by
  simp only [contractKept, Classical.not_imp] at h
  obtain ⟨hw, ha, hl⟩ := h
  exact takeAnswer_read_breach hw f ha hl s

/-- An answer that was taken kept the contract. -/
theorem contractKept_of_takeAnswer {t : TReq} {f : Finish} {a : TRsp} {s u : State} (h : takeAnswer t f a s = .next u) :
    contractKept t a := by
  by_contra hc
  rw [takeAnswer_of_not_contractKept hc] at h
  cases h

/-- What the block makes of the answer to a request that reached the channel is the failure matrix's (R133). -/
theorem answerRes_eq_matrixResult {r : Req} (h : earlyResult r = none) (a : TRsp) :
    answerRes (finishOf r (requestCall r)) a = matrixResult r a := by
  cases ha : a.ok with
  | false => simp [answerRes, matrixResult, failureRes, ha]
  | true =>
    by_cases h6 : r.op = 6#3
    · by_cases hd : a.data = r.payload <;>
        simp [answerRes, matrixResult, finishOf, requestCall, readCall, successRes, failureRes, ha, h6, hd]
    · have h7 : r.op ≠ 7#3 := fun hop => by simp [earlyResult, hop] at h
      obtain hop | hop | hop | hop | hop | hop | hop | hop := op_cases r.op <;>
        simp [answerRes, matrixResult, finishOf, requestCall, readCall, writeCall, successRes, ha, hop] at h6 h7 ⊢

/-! ### The invariant -/

/-- Ending an operation with a record the rules allow leaves a good state. -/
theorem State.complete_good {s : State} {xs : List Exchange} {r : Res} (hs : ∀ rec ∈ s.trace, rec.conforms)
    (hrec : OpRecord.conforms ⟨s.req, xs, r⟩) : (s.complete xs r).good := by
  refine ⟨⟨fun _ => rfl, nofun, nofun⟩, ?_⟩
  simpa [or_imp, forall_and] using ⟨hs, hrec⟩

/-- Emitting the call of a latched request that reaches the channel leaves a good state. -/
theorem State.await_good {s : State} (hs : ∀ rec ∈ s.trace, rec.conforms) (h : earlyResult s.req = none) :
    (s.await (requestCall s.req)).good := by
  refine ⟨⟨nofun, ?_, nofun⟩, hs⟩
  rintro - t ⟨⟩
  exact ⟨h, rfl⟩

/-- Taking the answer to the latched request's call leaves a good state. -/
theorem takeAnswer_good {a : TRsp} {s t : State} (hs : ∀ rec ∈ s.trace, rec.conforms) (h : earlyResult s.req = none)
    (ht : takeAnswer (requestCall s.req) (finishOf s.req (requestCall s.req)) a s = .next t) : t.good := by
  have hc := contractKept_of_takeAnswer ht
  have hrec : OpRecord.conforms ⟨s.req, [⟨requestCall s.req, a⟩], matrixResult s.req a⟩ :=
    .inr ⟨h, a, hc, rfl, rfl⟩
  obtain ⟨u, hu, hta⟩ := takeAnswer_of_contractKept hc (finishOf s.req (requestCall s.req)) s
  rw [hta, answerRes_eq_matrixResult h] at ht
  cases ht
  obtain rfl | rfl := hu
  · exact State.complete_good hs hrec
  · exact State.complete_good hs hrec

/-- Running the latched request leaves a good state, whatever the ports hold. -/
theorem runRequest_good {s t : State} (hs : ∀ rec ∈ s.trace, rec.conforms) (ht : runRequest s.req s = .next t) :
    t.good := by
  have hg : ∀ rec ∈ (s.atGate s.req).trace, rec.conforms := by rwa [State.atGate_trace]
  have hreq : (s.atGate s.req).req = s.req := State.atGate_req ..
  cases he : earlyResult s.req with
  | some k =>
    rw [runRequest_early he] at ht
    cases ht
    refine State.complete_good hg ?_
    rw [hreq]
    exact .inl ⟨k, he, rfl, rfl⟩
  | none =>
    rw [runRequest_call he] at ht
    rw [← hreq] at he
    cases hp : s.trspPort with
    | nil =>
      rw [callChannel_silent _ _ (by rwa [State.atGate_trspPort])] at ht
      cases ht
      have hgood := State.await_good hg he
      rwa [hreq] at hgood
    | cons a rest =>
      rw [callChannel_answered _ _ ((State.atGate_trspPort s s.req).trans hp)] at ht
      refine takeAnswer_good (a := a) (s := (s.atGate s.req).dropAnswer rest) hg he ?_
      rwa [State.dropAnswer_req, hreq]

/-- Settles O46: the step idles, runs the oldest request or the framed one, or takes the outstanding call's answer. -/
theorem stepKeepsTheStateGood : Obligations.StepKeepsTheStateGood := by
  rintro s t ⟨⟨hidle, hcall, hframed⟩, hs⟩ h
  cases hp : s.phase with
  | idle =>
    cases hr : s.reqPort with
    | nil =>
      rw [step_idle hp hr] at h
      cases h
      exact ⟨⟨hidle, hcall, hframed⟩, hs⟩
    | cons r rest =>
      rw [step_request hp hr, exec_decodeRequest] at h
      exact runRequest_good (s := s.accept r rest) hs h
  | busy =>
    cases ht : s.treq with
    | none =>
      obtain ⟨hop, hpkt⟩ := hframed hp ht
      rw [step_framed hp ht hop hpkt] at h
      exact runRequest_good hs h
    | some q =>
      obtain ⟨he, rfl⟩ := hcall hp q ht
      rw [step_resume hp ht] at h
      cases ha : s.trspPort with
      | nil =>
        rw [resume_silent _ ha] at h
        cases h
      | cons a rest =>
        rw [resume_answered _ ha] at h
        exact takeAnswer_good (s := s.dropAnswer rest) hs he h

/-- Settles O45: after reset the block is IDLE with nothing outstanding and an empty trace. -/
theorem resetStateIsGood : Obligations.ResetStateIsGood :=
  ⟨⟨fun _ => rfl, nofun, nofun⟩, nofun⟩

end Sys2Proof.Machine
end

section
/-! The step and the ports: what is accepted, taken and delivered (R12, R13, R17, R20). -/

namespace Sys2Proof.Machine

/-- Settles O1: the fields and the constants as they are defined; the seed is computed. -/
theorem resetIsIdleWithNothingPending : Obligations.ResetIsIdleWithNothingPending :=
  ⟨rfl, rfl, rfl, rfl, rfl, rfl, chkSeed_eq, rfl, rfl, rfl, rfl⟩

/-- Settles O2: the state the operation runs in is the one with the request accepted. -/
theorem stepRunsTheOldestRequest : Obligations.StepRunsTheOldestRequest :=
  fun _ _ _ hp hr => ⟨rfl, step_request hp hr⟩

/-- A step ends no operation and takes no answer, or ends exactly one, delivers its result and takes exactly the answers
recorded with it. -/
theorem step_ports {s t : State} (h : step s = .next t) :
    (t.trace = s.trace ∧ t.resPort = s.resPort ∧ t.trspPort = s.trspPort) ∨
    ∃ rec, t.trace = s.trace ++ [rec] ∧ t.resPort = s.resPort ++ [rec.result] ∧ t.res = rec.result ∧ t.phase = .idle ∧
      t.treq = none ∧ s.trspPort = rec.exchanges.map (fun x => x.answer) ++ t.trspPort := by
  obtain ⟨-, -, rfl⟩ | ⟨u, -, -, -, -, htrsp, hres, htrace, hend⟩ := step_next_cases h
  · exact .inl ⟨rfl, rfl, rfl⟩
  rw [← htrsp, ← hres, ← htrace]
  obtain ⟨k, rfl⟩ | ⟨q, -, rfl⟩ | ⟨q, a, rest, r, hp, rfl | ⟨-, rfl⟩⟩ := hend
  · exact .inr ⟨_, rfl, rfl, rfl, rfl, rfl, rfl⟩
  · exact .inl ⟨rfl, rfl, rfl⟩
  · exact .inr ⟨_, rfl, rfl, rfl, rfl, rfl, hp⟩
  · exact .inr ⟨_, rfl, rfl, rfl, rfl, rfl, hp⟩

/-- While BUSY a step leaves the waiting requests and the latch as they are (R13, R144). -/
theorem step_busy_requests {s t : State} (hp : s.phase = .busy) (h : step s = .next t) :
    t.reqPort = s.reqPort ∧ t.req = s.req := by
  obtain ⟨hi, -⟩ | ⟨u, -, -, -, hacc, -, -, -, hend⟩ := step_next_cases h
  · rw [hp] at hi
    cases hi
  obtain ⟨hi, -⟩ | ⟨-, hreq, hport⟩ := hacc
  · rw [hp] at hi
    cases hi
  rw [← hreq, ← hport]
  obtain ⟨k, rfl⟩ | ⟨q, -, rfl⟩ | ⟨q, a, rest, r, -, rfl | ⟨-, rfl⟩⟩ := hend <;> exact ⟨rfl, rfl⟩

/-- Settles O6: a step that ends an operation is IDLE. -/
theorem busyBlockAcceptsNoRequest : Obligations.BusyBlockAcceptsNoRequest := by
  intro s t hp h
  obtain ⟨hport, hreq⟩ := step_busy_requests hp h
  refine ⟨hport, hreq, fun hbusy => ?_⟩
  obtain ⟨htrace, hres, -⟩ | ⟨rec, -, -, -, hidle, -⟩ := step_ports h
  · exact ⟨htrace, hres⟩
  · rw [hbusy] at hidle
    cases hidle

/-- Settles O48: the answers a step takes are those of the record it adds. -/
theorem stepKeepsTheOrderOfAnswers : Obligations.StepKeepsTheOrderOfAnswers := by
  intro s t h
  obtain ⟨htrace, -, htrsp⟩ | ⟨rec, htrace, -, -, -, -, htrsp⟩ := step_ports h
  · simp [State.answerOrder, htrace, htrsp]
  · simp [State.answerOrder, htrace, htrsp]

/-- Settles O49: of what a step does at the ports, the part about results. -/
theorem oneResultPerRequest : Obligations.OneResultPerRequest := by
  intro s t h
  obtain ⟨htrace, hres, -⟩ | ⟨rec, htrace, hport, hres, hp, ht, -⟩ := step_ports h
  · exact .inl ⟨htrace, hres⟩
  · exact .inr ⟨rec, htrace, hport, hres, hp, ht⟩

end Sys2Proof.Machine
end

section
/-! An operation ends by its answer alone, whenever it comes and whatever else the block holds (R10, R12, R148). -/

namespace Sys2Proof.Machine

/-- IDLE with a request presented, the step does what the failure matrix says from the state that accepted it. -/
theorem step_idle_runRequest {s : State} {r : Req} {rest : List Req} (h : s.phase = .idle)
    (hr : s.reqPort = r :: rest) : step s = runRequest r (s.accept r rest) := by
  rw [step_request h hr, exec_decodeRequest]

/-- Settles O8: the outstanding call is resumed, and its answer keeps the contract. -/
theorem answerEndsTheWaitingOperation : Obligations.AnswerEndsTheWaitingOperation := by
  intro s a rest hp ht he ha hc
  obtain ⟨u, hu, hta⟩ := takeAnswer_of_contractKept hc (finishOf s.req (requestCall s.req)) (s.dropAnswer rest)
  rw [answerRes_eq_matrixResult he] at hta
  refine ⟨_, (step_resume hp ht).trans ((resume_answered _ ha).trans hta), rfl, rfl, ?_⟩
  obtain rfl | rfl := hu
  · exact ⟨rfl, rfl, rfl, rfl⟩
  · exact ⟨rfl, rfl, rfl, rfl⟩

/-- Whether the call was emitted in an earlier step makes no difference to what its answer does. -/
theorem takeAnswer_await (t : TReq) (f : Finish) (a : TRsp) {s : State} (q : TReq) :
    takeAnswer t f a (s.await q) = takeAnswer t f a s := by
  unfold takeAnswer
  rfl

/-- The registers written before the gate do not depend on the TRSP port. -/
theorem State.atGate_dropAnswer (s : State) (r : Req) (rest : List TRsp) :
    (s.dropAnswer rest).atGate r = (s.atGate r).dropAnswer rest := by
  by_cases h : r.op = 2#3
  · rw [State.atGate_sendCommand h, State.atGate_sendCommand h]
    cases r.optionalValue <;> rfl
  · rw [State.atGate_other h, State.atGate_other h]

/-- An answer sent to a silent channel is the one answer there, whatever was there before it is taken. -/
theorem sendAnswer_trspPort {s : State} (h : s.trspPort = []) (a : TRsp) : (sendAnswer a s).trspPort = [a] := by
  simp [sendAnswer, h]

/-- A request on which a condition of R127 holds ends with it. -/
theorem step_early {s : State} {r : Req} {rest : List Req} {k : Kind} (h : s.phase = .idle) (hr : s.reqPort = r :: rest)
    (he : earlyResult r = some k) :
    ∃ t, step s = .next t ∧ t.trace = s.trace ++ [⟨r, [], earlyFailure k⟩] ∧ t.res = earlyFailure k := by
  refine ⟨_, (step_idle_runRequest h hr).trans (runRequest_early he _), ?_, rfl⟩
  simp

/-- A request that reaches the channel takes the oldest answer to its call. -/
theorem step_answered {s : State} {r : Req} {rest : List Req} {a : TRsp} {as : List TRsp} (h : s.phase = .idle)
    (hr : s.reqPort = r :: rest) (ha : s.trspPort = a :: as) (he : earlyResult r = none) :
    step s = takeAnswer (requestCall r) (finishOf r (requestCall r)) a (((s.accept r rest).atGate r).dropAnswer as) := by
  have hp : ((s.accept r rest).atGate r).trspPort = a :: as := (State.atGate_trspPort ..).trans ha
  rw [step_idle_runRequest h hr, runRequest_call he, callChannel_answered _ _ hp]

/-- With an answer that keeps the contract it ends with the failure matrix's result. -/
theorem step_answered_kept {s : State} {r : Req} {rest : List Req} {a : TRsp} {as : List TRsp} (h : s.phase = .idle)
    (hr : s.reqPort = r :: rest) (ha : s.trspPort = a :: as) (he : earlyResult r = none)
    (hc : contractKept (requestCall r) a) :
    ∃ t, step s = .next t ∧ t.trace = s.trace ++ [⟨r, [⟨requestCall r, a⟩], matrixResult r a⟩] ∧
      t.res = matrixResult r a := by
  obtain ⟨u, hu, hta⟩ := takeAnswer_of_contractKept hc (finishOf r (requestCall r))
    (((s.accept r rest).atGate r).dropAnswer as)
  rw [answerRes_eq_matrixResult he] at hta
  refine ⟨_, (step_answered h hr ha he).trans hta, ?_, rfl⟩
  obtain rfl | rfl := hu <;> simp

/-- Settles O7: the call waits only when it reaches the channel, and the answer then meets the same registers. -/
theorem lateAnswerEndsAsAnEarlyOne : Obligations.LateAnswerEndsAsAnEarlyOne := by
  intro s t r rest a hp hr hq h hbusy
  rw [step_idle_runRequest hp hr] at h
  cases he : earlyResult r with
  | some k =>
    rw [runRequest_early he] at h
    cases h
    cases hbusy
  | none =>
    set u := (s.accept r rest).atGate r with hu
    have hreq : u.req = r := State.atGate_req ..
    have hquiet : u.trspPort = [] := (State.atGate_trspPort ..).trans hq
    rw [runRequest_call he, callChannel_silent _ _ hquiet] at h
    cases h
    have hlate : step (sendAnswer a (u.await (requestCall r))) =
        takeAnswer (requestCall r) (finishOf r (requestCall r)) a (u.dropAnswer []) := by
      rw [step_resume rfl rfl, resume_answered _ (sendAnswer_trspPort (s := u.await _) hquiet a)]
      change takeAnswer _ (finishOf u.req _) a ((u.dropAnswer []).await _) = _
      rw [hreq, takeAnswer_await]
    have hearly : step (sendAnswer a s) =
        takeAnswer (requestCall r) (finishOf r (requestCall r)) a (u.dropAnswer []) := by
      rw [step_answered (s := sendAnswer a s) hp hr (sendAnswer_trspPort hq a) he, hu, ← State.atGate_dropAnswer,
        ← State.atGate_dropAnswer]
      rfl
    rw [hlate, hearly]

/-- Settles O50: a failure before any call depends on the request alone, the rest on the call and its answer. -/
theorem operationDependsOnRequestAndAnswerAlone : Obligations.OperationDependsOnRequestAndAnswerAlone := by
  intro s u r rs qs a as bs hps hpu hrs hru has hau
  cases he : earlyResult r with
  | some k =>
    obtain ⟨t, hst, htrace, hres⟩ := step_early hps hrs he
    obtain ⟨w, hsw, hwtrace, hwres⟩ := step_early hpu hru he
    exact .inr ⟨t, w, _, hst, hsw, htrace, hwtrace, hres, hwres⟩
  | none =>
    by_cases hc : contractKept (requestCall r) a
    · obtain ⟨t, hst, htrace, hres⟩ := step_answered_kept hps hrs has he hc
      obtain ⟨w, hsw, hwtrace, hwres⟩ := step_answered_kept hpu hru hau he hc
      exact .inr ⟨t, w, _, hst, hsw, htrace, hwtrace, hres, hwres⟩
    · refine .inl ⟨.answerBreaksContract, ?_, ?_⟩
      · rw [step_answered hps hrs has he, takeAnswer_of_not_contractKept hc]
      · rw [step_answered hpu hru hau he, takeAnswer_of_not_contractKept hc]

end Sys2Proof.Machine
end

section
/-! The frame of SEND_COMMAND and of the packet rows (R14, R75). -/

namespace Sys2Proof.Machine

/-- A write the gate answers ends the operation, with what is left of the answers, or waits. -/
theorem gatedWrite_next_cases {ho : Option Handle} {chip : Chip} {addr : Addr} {p : Bytes} {s t : State}
    (h : gatedWrite ho chip addr p s = .next t) :
    (∃ rest xs r, t = (s.dropAnswer rest).complete xs r) ∨ ∃ q, t = s.await q := by
  cases ho with
  | none =>
    rw [gatedWrite_none, raise_eq] at h
    cases h
    exact .inl ⟨s.trspPort, _, _, rfl⟩
  | some x =>
    rw [gatedWrite_some] at h
    cases ha : s.trspPort with
    | nil =>
      rw [callChannel_silent _ _ ha] at h
      cases h
      exact .inr ⟨_, rfl⟩
    | cons a rest =>
      rw [callChannel_answered _ _ ha, takeAnswer_write rfl] at h
      cases h
      exact .inl ⟨rest, _, _, rfl⟩

/-- What SEND_COMMAND leaves unchanged; its end is one result and one record for the latched request. -/
theorem exec_sendCommand_frame {ho : Option Handle} {c : Byte} {v : Option Value} {s t : State}
    (h : exec (.sendCommand ho c v) s = .next t) :
    t.req = s.req ∧ t.rbuf = s.rbuf ∧ t.reqPort = s.reqPort ∧
    (∀ j : Fin 6, t.pktLen.toNat ≤ j.val → t.pkt[j] = s.pkt[j]) ∧
    (t.phase = .busy → t.res = s.res ∧ t.resPort = s.resPort ∧ t.trace = s.trace ∧ t.trspPort = s.trspPort) ∧
    (t.phase = .idle → t.treq = none ∧ t.resPort = s.resPort ++ [t.res] ∧
      ∃ xs, t.trace = s.trace ++ [{ request := s.req, exchanges := xs, result := t.res }]) := by
  have hpkt := s.withPacket_pkt_above c v
  rw [exec_sendCommand_eq_rawWrite] at h
  obtain ⟨rest, xs, r, rfl⟩ | ⟨q, rfl⟩ := gatedWrite_next_cases h
  · refine ⟨?_, ?_, ?_, hpkt, nofun, fun _ => ⟨rfl, ?_, xs, ?_⟩⟩ <;> simp
  · refine ⟨?_, ?_, ?_, hpkt, fun _ => ⟨?_, ?_, ?_, ?_⟩, nofun⟩ <;> simp

/-- Settles O37: the packet rows run as their SEND_COMMAND. -/
theorem sendFrame : Obligations.SendFrame := by
  rintro ho c h l k v s t i (rfl | rfl | rfl) ht
  · exact exec_sendCommand_frame ht
  · rw [exec_ddcPkt4_eq_sendCommand] at ht
    exact exec_sendCommand_frame ht
  · rw [exec_ddcPkt6_eq_sendCommand] at ht
    exact exec_sendCommand_frame ht

end Sys2Proof.Machine
end

section
/-! A step commutes with every renaming of handles and of status codes (R21, R70, R122). -/

namespace Sys2Proof.Machine

/-! ### The instruction a renamed request decodes to -/

/-- Rename the handle of an instruction. -/
def renameInstr (f : Handle → Handle) (i : Instr) : Instr :=
  match i with
  | .rawWrite h chip addr p => .rawWrite (h.map f) chip addr p
  | .rawRead h chip addr n => .rawRead (h.map f) chip addr n
  | .sendCommand h c v => .sendCommand (h.map f) c v
  | .readResponse h n => .readResponse (h.map f) n
  | .writeBlock h addr p => .writeBlock (h.map f) addr p
  | .readBlock h addr n => .readBlock (h.map f) addr n
  | .verifyBlock h addr e => .verifyBlock (h.map f) addr e
  | .reserved7 => .reserved7
  | .ddcPkt4 c k => .ddcPkt4 c k
  | .ddcPkt6 c h l k => .ddcPkt6 c h l k

theorem renameReq_serviceHandle (f : Handle → Handle) (r : Req) :
    (renameReq f r).serviceHandle = r.serviceHandle.map f := by
  cases h : r.handlePresent <;> simp [renameReq, Req.serviceHandle, h]

theorem decodeRequest_renameReq (f : Handle → Handle) (r : Req) :
    decodeRequest (renameReq f r) = renameInstr f (decodeRequest r) := by
  have hop : (renameReq f r).op = r.op := rfl
  simp only [decodeRequest, renameReq_serviceHandle, hop]
  split <;> rfl

/-- A packet holds no handle. -/
theorem renameInstr_decodePacket (f : Handle → Handle) {p : Bytes} {i : Instr} (h : decodePacket p = .ok i) :
    renameInstr f i = i := by
  unfold decodePacket at h
  repeat' split at h
  all_goals cases h
  all_goals rfl

section Renaming

variable (f : Handle → Handle) (g : Code → Code)

/-! ### The state's updates -/

theorem State.complete_rename (s : State) (xs : List Exchange) (r : Res) :
    (s.complete xs r).rename f g = (s.rename f g).complete (xs.map (Exchange.rename f g)) (r.rename g) := by
  simp [State.complete, State.rename, OpRecord.rename]

theorem State.await_rename (s : State) (t : TReq) : (s.await t).rename f g = (s.rename f g).await (t.rename f) := rfl

theorem State.setRbuf_rename (s : State) (d : Bytes) : (s.setRbuf d).rename f g = (s.rename f g).setRbuf d := rfl

theorem State.dropAnswer_rename (s : State) (rest : List TRsp) :
    (s.dropAnswer rest).rename f g = (s.rename f g).dropAnswer (rest.map (TRsp.rename g)) := rfl

theorem State.accept_rename (s : State) (r : Req) (rest : List Req) :
    (s.accept r rest).rename f g = (s.rename f g).accept (renameReq f r) (rest.map (renameReq f)) := rfl

/-! ### The shared operations -/

/-- A status code is carried into the result and not looked at (R122). -/
theorem answerRes_rename (k : Finish) (a : TRsp) : answerRes k (a.rename g) = (answerRes k a).rename g := by
  cases ha : a.ok with
  | false => simp [answerRes, TRsp.rename, Res.rename, failureRes, ha]
  | true =>
    cases k with
    | report => simp [answerRes, TRsp.rename, Res.rename, successRes, ha]
    | deliver => simp [answerRes, TRsp.rename, Res.rename, successRes, ha]
    | compare e =>
      by_cases h : a.data = e <;> simp [answerRes, TRsp.rename, Res.rename, successRes, failureRes, ha, h]

theorem raise_rename (k : Kind) (s : State) : raise k (s.rename f g) = renameOut f g (raise k s) := by
  rw [raise_eq, raise_eq, renameOut, State.complete_rename]
  rfl

theorem takeAnswer_rename (t : TReq) (k : Finish) (a : TRsp) (s : State) :
    takeAnswer (t.rename f) k (a.rename g) (s.rename f g) = renameOut f g (takeAnswer t k a s) := by
  obtain ⟨h, hc⟩ | ⟨h, hw, ha, hl⟩ | ⟨h, hw, ha, hl⟩ := takeAnswer_cases t k a s
  · rw [h, renameOut, State.complete_rename, ← answerRes_rename]
    cases hw : t.write with
    | true => exact takeAnswer_write (t := t.rename f) hw ..
    | false =>
      have ha : a.ok = false := by simpa [hw] using hc
      exact takeAnswer_read_fail (t := t.rename f) hw _ (a := a.rename g) ha _
  · rw [h, renameOut, State.complete_rename, State.setRbuf_rename, ← answerRes_rename]
    exact takeAnswer_read_ok (t := t.rename f) hw _ (a := a.rename g) ha hl _
  · rw [h]
    exact takeAnswer_read_breach (t := t.rename f) hw _ (a := a.rename g) ha hl _

theorem callChannel_rename (t : TReq) (k : Finish) (s : State) :
    callChannel (t.rename f) k (s.rename f g) = renameOut f g (callChannel t k s) := by
  cases h : s.trspPort with
  | nil =>
    have h' : (s.rename f g).trspPort = [] := by simp [State.rename, h]
    rw [callChannel_silent _ _ h, callChannel_silent _ _ h']
    rfl
  | cons a rest =>
    have h' : (s.rename f g).trspPort = a.rename g :: rest.map (TRsp.rename g) := by simp [State.rename, h]
    rw [callChannel_answered _ _ h, callChannel_answered _ _ h', ← takeAnswer_rename, State.dropAnswer_rename]

/-- A handle is passed to the channel and not looked at (R21, R70). -/
theorem gatedWrite_rename (ho : Option Handle) (chip : Chip) (addr : Addr) (p : Bytes) (s : State) :
    gatedWrite (ho.map f) chip addr p (s.rename f g) = renameOut f g (gatedWrite ho chip addr p s) := by
  cases ho with
  | none => exact raise_rename ..
  | some x => exact callChannel_rename f g (writeCall x chip addr p) .report s

theorem gatedRead_rename (ho : Option Handle) (chip : Chip) (addr : Addr) (n : Nat) (k : Finish) (s : State) :
    gatedRead (ho.map f) chip addr n k (s.rename f g) = renameOut f g (gatedRead ho chip addr n k s) := by
  cases ho with
  | none => exact raise_rename ..
  | some x => exact callChannel_rename f g (readCall x chip addr n) k s

theorem transmitFramed_rename (ho : Option Handle) (p : Bytes) (n : PktLen) (s : State) :
    transmitFramed (ho.map f) p n (s.rename f g) = renameOut f g (transmitFramed ho p n s) :=
  gatedWrite_rename f g ho _ _ _ ((s.setPkt (checksum p) n).setChk (checksumByte p))

theorem resume_rename (t : TReq) (s : State) :
    resume (t.rename f) (s.rename f g) = renameOut f g (resume t s) := by
  cases h : s.trspPort with
  | nil =>
    have h' : (s.rename f g).trspPort = [] := by simp [State.rename, h]
    rw [resume_silent _ h, resume_silent _ h']
    rfl
  | cons a rest =>
    have h' : (s.rename f g).trspPort = a.rename g :: rest.map (TRsp.rename g) := by simp [State.rename, h]
    rw [resume_answered _ h, resume_answered _ h', ← takeAnswer_rename, State.dropAnswer_rename]
    rfl

/-! ### The instruction and the step -/

theorem exec_rename (i : Instr) (s : State) :
    exec (renameInstr f i) (s.rename f g) = renameOut f g (exec i s) := by
  cases i with
  | rawWrite ho chip addr p => exact gatedWrite_rename ..
  | rawRead ho chip addr n => exact gatedRead_rename ..
  | sendCommand ho c v => exact transmitFramed_rename ..
  | readResponse ho n => exact gatedRead_rename ..
  | writeBlock ho addr p =>
    simp only [renameInstr, exec, execWriteBlock]
    split
    · exact gatedWrite_rename ..
    · exact raise_rename ..
  | readBlock ho addr n =>
    simp only [renameInstr, exec, execReadBlock]
    split
    · exact gatedRead_rename ..
    · exact raise_rename ..
  | verifyBlock ho addr e =>
    simp only [renameInstr, exec, execVerifyBlock]
    split
    · exact gatedRead_rename ..
    · exact raise_rename ..
  | reserved7 => exact raise_rename ..
  | ddcPkt4 c k =>
    rw [renameInstr, exec_ddcPkt4_eq_sendCommand, exec_ddcPkt4_eq_sendCommand]
    simp only [State.rename, renameReq_serviceHandle]
    exact transmitFramed_rename ..
  | ddcPkt6 c h l k =>
    rw [renameInstr, exec_ddcPkt6_eq_sendCommand, exec_ddcPkt6_eq_sendCommand]
    simp only [State.rename, renameReq_serviceHandle]
    exact transmitFramed_rename ..

end Renaming

/-- Settles O51: case by case of what the step fetches. -/
theorem handlesAndCodesAreNeverInspected : Obligations.HandlesAndCodesAreNeverInspected := by
  intro f g s
  cases hp : s.phase with
  | idle =>
    have hp' : (s.rename f g).phase = .idle := hp
    cases hr : s.reqPort with
    | nil =>
      have hr' : (s.rename f g).reqPort = [] := by simp [State.rename, hr]
      rw [step_idle hp hr, step_idle hp' hr']
      rfl
    | cons r rest =>
      have hr' : (s.rename f g).reqPort = renameReq f r :: rest.map (renameReq f) := by simp [State.rename, hr]
      rw [step_request hp hr, step_request hp' hr', decodeRequest_renameReq, ← State.accept_rename, exec_rename]
  | busy =>
    have hp' : (s.rename f g).phase = .busy := hp
    cases ht : s.treq with
    | none =>
      have ht' : (s.rename f g).treq = none := by simp [State.rename, ht]
      have hb : (s.rename f g).pktBytes = s.pktBytes := rfl
      rw [step_packet hp ht, step_packet hp' ht', hb]
      cases hd : decodePacket s.pktBytes with
      | error e => rfl
      | ok i =>
        have hi := exec_rename f g i s
        rwa [renameInstr_decodePacket f hd] at hi
    | some t =>
      have ht' : (s.rename f g).treq = some (t.rename f) := by simp [State.rename, ht]
      rw [step_resume hp ht, step_resume hp' ht', resume_rename]

end Sys2Proof.Machine
end

section
/-! No step loses, reorders or merges a request: accepting, waiting and ending move the boundaries between the finished,
the one in flight and the waiting, and not the sequence they make (R42, R144). -/

namespace Sys2Proof.Machine

theorem State.requestOrder_idle {s : State} (h : s.phase = .idle) :
    s.requestOrder = s.trace.map (fun rec => rec.request) ++ s.reqPort := by
  simp [State.requestOrder, h]

theorem State.requestOrder_busy {s : State} (h : s.phase = .busy) :
    s.requestOrder = s.trace.map (fun rec => rec.request) ++ s.req :: s.reqPort := by
  simp [State.requestOrder, h]

/-- Ending the operation in flight makes its request the last finished one. -/
theorem State.complete_requestOrder {s : State} (h : s.phase = .busy) (xs : List Exchange) (r : Res) :
    (s.complete xs r).requestOrder = s.requestOrder := by
  rw [State.requestOrder_idle (State.complete_phase ..), State.requestOrder_busy h]
  simp

theorem State.await_requestOrder {s : State} (h : s.phase = .busy) (q : TReq) :
    (s.await q).requestOrder = s.requestOrder := by
  rw [State.requestOrder_busy (State.await_phase ..), State.requestOrder_busy h]
  simp

/-- A request presented is the last of the sequence, in either phase. -/
theorem presentRequest_requestOrder (r : Req) (s : State) :
    (presentRequest r s).requestOrder = s.requestOrder ++ [r] := by
  cases hp : s.phase with
  | idle =>
    rw [State.requestOrder_idle hp, State.requestOrder_idle (s := presentRequest r s) hp]
    simp [presentRequest]
  | busy =>
    rw [State.requestOrder_busy hp, State.requestOrder_busy (s := presentRequest r s) hp]
    simp [presentRequest]

/-- Settles O47: accepting the oldest request keeps the sequence, and so does whatever the operation then does. -/
theorem stepKeepsTheOrderOfRequests : Obligations.StepKeepsTheOrderOfRequests := by
  refine ⟨fun s t h => ?_, presentRequest_requestOrder⟩
  obtain ⟨-, -, rfl⟩ | ⟨u, hbusy, -, -, hacc, -, -, htrace, hend⟩ := step_next_cases h
  · rfl
  have hfetch : u.requestOrder = s.requestOrder := by
    rw [State.requestOrder_busy hbusy, htrace]
    obtain ⟨hp, hport⟩ | ⟨hp, hreq, hport⟩ := hacc
    · rw [State.requestOrder_idle hp, hport]
    · rw [State.requestOrder_busy hp, hreq, hport]
  rw [← hfetch]
  obtain ⟨k, rfl⟩ | ⟨q, -, rfl⟩ | ⟨q, a, rest, r, -, rfl | ⟨-, rfl⟩⟩ := hend
  · exact State.complete_requestOrder hbusy ..
  · exact State.await_requestOrder hbusy q
  · exact State.complete_requestOrder (s := u.dropAnswer rest) hbusy ..
  · exact State.complete_requestOrder (s := (u.dropAnswer rest).setRbuf a.data) hbusy ..

end Sys2Proof.Machine
end

section
/-! The request encoding (R50 to R53, R63): what the encoder writes into a request the decoder reads back, and what the
decoder does not read has no effect. -/

namespace Sys2Proof

open Machine

/-! ### The handle pair and the value pair of a request, written and read (R21, R51) -/

section RequestFields

variable (r : Req) (h : Option Handle) (v : Option Value)

@[simp] theorem Req.withHandle_op : (r.withHandle h).op = r.op := by cases h <;> rfl
@[simp] theorem Req.withHandle_serviceHandle : (r.withHandle h).serviceHandle = h := by cases h <;> rfl
@[simp] theorem Req.withHandle_chip : (r.withHandle h).chip = r.chip := by cases h <;> rfl
@[simp] theorem Req.withHandle_addr : (r.withHandle h).addr = r.addr := by cases h <;> rfl
@[simp] theorem Req.withHandle_len : (r.withHandle h).len = r.len := by cases h <;> rfl
@[simp] theorem Req.withHandle_command : (r.withHandle h).command = r.command := by cases h <;> rfl
@[simp] theorem Req.withHandle_payload : (r.withHandle h).payload = r.payload := by cases h <;> rfl

@[simp] theorem Req.withValue_op : (r.withValue v).op = r.op := by cases v <;> rfl
@[simp] theorem Req.withValue_serviceHandle : (r.withValue v).serviceHandle = r.serviceHandle := by cases v <;> rfl
@[simp] theorem Req.withValue_command : (r.withValue v).command = r.command := by cases v <;> rfl
@[simp] theorem Req.withValue_optionalValue : (r.withValue v).optionalValue = v := by cases v <;> rfl

@[simp] theorem Req.zero_op (op : BitVec 3) : (Req.zero op).op = op := rfl

end RequestFields

@[simp] theorem decode_request (r : Req) : decode (.request r) = .ok (decodeRequest r) := rfl

@[simp] theorem decode_packet (p : Bytes) : decode (.packet p) = decodePacket p := rfl

/-- The round trip needs no well-formedness: the check byte of a packet is a field of its own. -/
theorem decode_encode (i : Instr) : decode (encode i) = .ok i := by
  cases i with
  | rawWrite h chip addr p => simp [encode, decodeRequest_rawWrite]
  | rawRead h chip addr n => simp [encode, decodeRequest_rawRead]
  | sendCommand h c v => simp [encode, decodeRequest_sendCommand]
  | readResponse h n => simp [encode, decodeRequest_readResponse]
  | writeBlock h addr p => simp [encode, decodeRequest_writeBlock]
  | readBlock h addr n => simp [encode, decodeRequest_readBlock]
  | verifyBlock h addr e => simp [encode, decodeRequest_verifyBlock]
  | reserved7 => rfl
  | ddcPkt4 c k => rfl
  | ddcPkt6 c h l k => rfl

/-- Settles O11: the round trip holds of every instruction. -/
theorem decodeOfEncodeIsTheInstruction : Obligations.DecodeOfEncodeIsTheInstruction :=
  fun i _ => decode_encode i

/-- The value is read only when `has_value` is 1 (R51). -/
theorem Req.optionalValue_congr {r q : Req} (hv : r.hasValue = q.hasValue) (h : r.hasValue = true → r.value = q.value) :
    r.optionalValue = q.optionalValue := by
  unfold Req.optionalValue
  rw [← hv]
  split
  · rw [h ‹_›]
  · rfl

/-- Settles O14: selector by selector, the operands the decoder reads are those `sameOperands` lists. -/
theorem ignoredFieldsHaveNoEffect : Obligations.IgnoredFieldsHaveNoEffect := by
  rintro r q ⟨hop, hhandle, hchip, haddr, hlen, hcommand, hpayload⟩
  obtain h | h | h | h | h | h | h | h := op_cases r.op <;> have hq := hop.symm.trans h
  · rw [decodeRequest_rawWrite h, decodeRequest_rawWrite hq, hhandle (by simp [h]), hchip (by simp [h]),
      haddr (by simp [h]), hpayload (by simp [h])]
  · rw [decodeRequest_rawRead h, decodeRequest_rawRead hq, hhandle (by simp [h]), hchip (by simp [h]),
      haddr (by simp [h]), hlen (by simp [h])]
  · obtain ⟨hc, hv, hvalue⟩ := hcommand h
    rw [decodeRequest_sendCommand h, decodeRequest_sendCommand hq, hhandle (by simp [h]), hc,
      Req.optionalValue_congr hv hvalue]
  · rw [decodeRequest_readResponse h, decodeRequest_readResponse hq, hhandle (by simp [h]), hlen (by simp [h])]
  · rw [decodeRequest_writeBlock h, decodeRequest_writeBlock hq, hhandle (by simp [h]), haddr (by simp [h]),
      hpayload (by simp [h])]
  · rw [decodeRequest_readBlock h, decodeRequest_readBlock hq, hhandle (by simp [h]), haddr (by simp [h]),
      hlen (by simp [h])]
  · rw [decodeRequest_verifyBlock h, decodeRequest_verifyBlock hq, hhandle (by simp [h]), haddr (by simp [h]),
      hpayload (by simp [h])]
  · rw [decodeRequest_reserved7 h, decodeRequest_reserved7 hq]

end Sys2Proof
end

section
/-! The packet encoding (R54 to R62): the bytes that decode, and the bytes this block can have produced. -/

namespace Sys2Proof.Machine

/-- The bytes that decode as a packet are those of the two patterns of R60 and R61. -/
theorem decodePacket_ok_iff {p : Bytes} {i : Instr} : decodePacket p = .ok i ↔
    (∃ c k, p = [0x82#8, 0x01#8, c, k] ∧ i = .ddcPkt4 c k) ∨
    (∃ c h l k, p = [0x84#8, 0x03#8, c, h, l, k] ∧ i = .ddcPkt6 c h l k) := by
  constructor
  · intro hd
    unfold decodePacket at hd
    split at hd
    next b0 b1 c k =>
      split_ifs at hd with h0 h1
      cases hd
      exact .inl ⟨c, k, by rw [h0, h1], rfl⟩
    next b0 b1 c h l k =>
      split_ifs at hd with h0 h1
      cases hd
      exact .inr ⟨c, h, l, k, by rw [h0, h1], rfl⟩
    next => cases hd
  · rintro (⟨c, k, rfl, rfl⟩ | ⟨c, h, l, k, rfl, rfl⟩) <;> rfl

/-- Settles O12: each of the two patterns is the encoding of its own row. -/
theorem decodedPacketEncodesToItsBytes : Obligations.DecodedPacketEncodesToItsBytes := by
  intro p i hd
  obtain ⟨c, k, rfl, rfl⟩ | ⟨c, h, l, k, rfl, rfl⟩ := decodePacket_ok_iff.mp hd <;> rfl

theorem encode_eq_packet_iff {p : Bytes} {i : Instr} : encode i = .packet p ↔ decodePacket p = .ok i := by
  refine ⟨fun he => ?_, decodedPacketEncodesToItsBytes p i⟩
  rw [← decode_packet, ← he, decode_encode]

/-! ### The check byte -/

/-- R84: the check byte of a well-formed packet without a value. -/
theorem wellFormed_ddcPkt4_iff (c k : Byte) : wellFormed (.ddcPkt4 c k) = true ↔ k = 0xBC#8 ^^^ c := by
  simp [wellFormed, chkSeed_eq]

/-- R84: the check byte of a well-formed packet with a value. -/
theorem wellFormed_ddcPkt6_iff (c h l k : Byte) :
    wellFormed (.ddcPkt6 c h l k) = true ↔ k = 0xB8#8 ^^^ c ^^^ h ^^^ l := by
  simp [wellFormed, chkSeed_eq]

/-- The XOR with a last byte is zero exactly when that byte is the XOR of what stands before it (R83). -/
theorem xorAll_concat_eq_zero_iff (x k : Byte) (p : Bytes) : xorAll x (p ++ [k]) = 0x00#8 ↔ k = xorAll x p := by
  rw [xorAll_append, xorAll_cons, xorAll_nil, BitVec.xor_eq_zero_iff, eq_comm]

theorem wellFormed_ddcPkt4_iff_xor (c k : Byte) :
    wellFormed (.ddcPkt4 c k) = true ↔ xorAll 0x3F#8 [0x82#8, 0x01#8, c, k] = 0x00#8 := by
  rw [wellFormed, decide_eq_true_iff, ← xorAll_concat_eq_zero_iff, chkSeed_eq]
  rfl

theorem wellFormed_ddcPkt6_iff_xor (c h l k : Byte) :
    wellFormed (.ddcPkt6 c h l k) = true ↔ xorAll 0x3F#8 [0x84#8, 0x03#8, c, h, l, k] = 0x00#8 := by
  rw [wellFormed, decide_eq_true_iff, ← xorAll_concat_eq_zero_iff, chkSeed_eq]
  rfl

/-! ### The packets this block can have produced (R62) -/

/-- The packet of a value given as its two bytes. -/
theorem closedPacket_append (c h l : Byte) :
    closedPacket c (some (h ++ l)) = [0x84#8, 0x03#8, c, h, l, 0xB8#8 ^^^ c ^^^ h ^^^ l] := by
  change [0x84#8, 0x03#8, c, highByte (h ++ l), lowByte (h ++ l),
    0xB8#8 ^^^ c ^^^ highByte (h ++ l) ^^^ lowByte (h ++ l)] = _
  rw [highByte_append, lowByte_append]

/-- They are the bytes of the two patterns that have the right check byte. -/
theorem exists_packet_eq_iff_pattern (p : Bytes) : (∃ c v, packet c v = p) ↔
    (∃ c k, p = [0x82#8, 0x01#8, c, k] ∧ wellFormed (.ddcPkt4 c k) = true) ∨
    (∃ c h l k, p = [0x84#8, 0x03#8, c, h, l, k] ∧ wellFormed (.ddcPkt6 c h l k) = true) := by
  simp only [packet_eq_closedPacket, wellFormed_ddcPkt4_iff, wellFormed_ddcPkt6_iff]
  constructor
  · rintro ⟨c, none | v, rfl⟩
    · exact .inl ⟨c, _, rfl, rfl⟩
    · exact .inr ⟨c, highByte v, lowByte v, _, rfl, rfl⟩
  · rintro (⟨c, k, rfl, rfl⟩ | ⟨c, h, l, k, rfl, rfl⟩)
    · exact ⟨c, none, rfl⟩
    · exact ⟨c, some (h ++ l), closedPacket_append c h l⟩

/-- They are the encodings of the well-formed packet rows. -/
theorem exists_packet_eq_iff_encode (p : Bytes) :
    (∃ c v, packet c v = p) ↔ ∃ i, wellFormed i = true ∧ encode i = .packet p := by
  rw [exists_packet_eq_iff_pattern]
  constructor
  · rintro (⟨c, k, rfl, hw⟩ | ⟨c, h, l, k, rfl, hw⟩)
    · exact ⟨.ddcPkt4 c k, hw, rfl⟩
    · exact ⟨.ddcPkt6 c h l k, hw, rfl⟩
  · rintro ⟨i, hw, he⟩
    obtain ⟨c, k, rfl, rfl⟩ | ⟨c, h, l, k, rfl, rfl⟩ := decodePacket_ok_iff.mp (encode_eq_packet_iff.mp he)
    · exact .inl ⟨c, k, rfl, hw⟩
    · exact .inr ⟨c, h, l, k, rfl, hw⟩

/-- They are the bytes that meet R62's four conditions. -/
theorem exists_packet_eq_iff_conditions (p : Bytes) : (∃ c v, packet c v = p) ↔
    (p.length = 4 ∨ p.length = 6) ∧ p.getD 0 0#8 = 0x80#8 ||| BitVec.ofNat 8 (p.length - 2) ∧
      p.getD 1 0#8 = BitVec.ofNat 8 (p.length - 3) ∧ xorAll 0x3F#8 p = 0x00#8 := by
  rw [exists_packet_eq_iff_pattern]
  constructor
  · rintro (⟨c, k, rfl, hw⟩ | ⟨c, h, l, k, rfl, hw⟩)
    · exact ⟨.inl rfl, by simp, by simp, (wellFormed_ddcPkt4_iff_xor c k).mp hw⟩
    · exact ⟨.inr rfl, by simp, by simp, (wellFormed_ddcPkt6_iff_xor c h l k).mp hw⟩
  · rintro ⟨hlen | hlen, hheader, hlength, hxor⟩
    · match p, hlen with
      | [b0, b1, c, k], _ =>
        obtain rfl : b0 = 0x82#8 := by simpa using hheader
        obtain rfl : b1 = 0x01#8 := by simpa using hlength
        exact .inl ⟨c, k, rfl, (wellFormed_ddcPkt4_iff_xor c k).mpr hxor⟩
    · match p, hlen with
      | [b0, b1, c, h, l, k], _ =>
        obtain rfl : b0 = 0x84#8 := by simpa using hheader
        obtain rfl : b1 = 0x03#8 := by simpa using hlength
        exact .inr ⟨c, h, l, k, rfl, (wellFormed_ddcPkt6_iff_xor c h l k).mpr hxor⟩

/-- R62: either of the first two bytes of a packet tells its length. -/
theorem packet_length_of_bytes {p : Bytes} (h : ∃ c v, packet c v = p) :
    p.length = (p.getD 1 0#8).toNat + 3 ∧ p.length = ((p.getD 0 0#8) &&& 0x7F#8).toNat + 2 ∧
      (p.length = 4 ↔ p.getD 0 0#8 = 0x82#8) ∧ (p.length = 6 ↔ p.getD 0 0#8 = 0x84#8) := by
  obtain ⟨c, k, rfl, -⟩ | ⟨c, h, l, k, rfl, -⟩ := (exists_packet_eq_iff_pattern p).mp h <;> simp

/-- Settles O13: the three descriptions of the block's packets, and the two ways to tell the length. -/
theorem produciblePacketsAreExactlyThese : Obligations.ProduciblePacketsAreExactlyThese :=
  fun p => ⟨exists_packet_eq_iff_conditions p, exists_packet_eq_iff_encode p, packet_length_of_bytes⟩

end Sys2Proof.Machine
end

section
/-! The operations 30_encoding.md section 5 names: VERIFY_BLOCK over READ_BLOCK (R67, R103), and the
brightness query (R66, R67). -/

namespace Sys2Proof.Machine

/-- R103: what VERIFY_BLOCK of `e` reports where READ_BLOCK reports `r`: its failure, or the comparison of its bytes. -/
def comparedRes (e : Bytes) (r : Res) : Res :=
  if r.ok = false then r
  else if r.data = e then successRes []
  else failureRes .verifyMismatch none

/-- Comparing an answer is comparing what delivering it reports. -/
theorem answerRes_compare (e : Bytes) (a : TRsp) : answerRes (.compare e) a = comparedRes e (answerRes .deliver a) := by
  cases ha : a.ok <;> simp [answerRes, comparedRes, successRes, failureRes, ha]

/-- An operation whose read is delivered runs from `s` to `t`; `o` is the outcome of the same operation with its read
compared with `e`: the same waiting state, or the same end but for the result, which is compared. -/
def comparesTo (e : Bytes) (s t : State) (o : Out) : Prop :=
  (t.phase = .busy ∧ o = .next t) ∨
  ∃ (u : State) (xs : List Exchange) (r : Res), u.req = s.req ∧ u.trace = s.trace ∧ t = u.complete xs r ∧
    o = .next (u.complete xs (comparedRes e r))

theorem raise_comparesTo (e : Bytes) {k : Kind} {s t : State} (h : raise k s = .next t) :
    comparesTo e s t (raise k s) := by
  rw [raise_eq] at h
  cases h
  exact .inr ⟨s, [], failureRes k none, rfl, rfl, rfl, rfl⟩

/-- What is done with an answer decides the result alone: the contract, and the registers written, are the call's. -/
theorem takeAnswer_finish (q : TReq) (a : TRsp) (s : State) :
    (∃ u : State, u.req = s.req ∧ u.trace = s.trace ∧
      ∀ f, takeAnswer q f a s = .next (u.complete [⟨q, a⟩] (answerRes f a))) ∨
    ∀ f, takeAnswer q f a s = .refused .answerBreaksContract := by
  by_cases hc : contractKept q a
  · left
    cases hw : q.write with
    | true => exact ⟨s, rfl, rfl, fun f => takeAnswer_write hw f a s⟩
    | false =>
      cases ha : a.ok with
      | false => exact ⟨s, rfl, rfl, fun f => takeAnswer_read_fail hw f ha s⟩
      | true => exact ⟨s.setRbuf a.data, rfl, rfl, fun f => takeAnswer_read_ok hw f ha (hc hw ha) s⟩
  · exact .inr fun f => takeAnswer_of_not_contractKept hc f s

theorem takeAnswer_comparesTo (e : Bytes) {q : TReq} {a : TRsp} {s t : State}
    (h : takeAnswer q .deliver a s = .next t) :
    comparesTo e s t (takeAnswer q (.compare e) a s) := by
  obtain ⟨u, hreq, htrace, hu⟩ | hbreach := takeAnswer_finish q a s
  · rw [hu] at h ⊢
    cases h
    rw [answerRes_compare]
    exact .inr ⟨u, _, _, hreq, htrace, rfl, rfl⟩
  · rw [hbreach] at h
    cases h

theorem gatedRead_comparesTo (e : Bytes) {ho : Option Handle} {chip : Chip} {addr : Addr} {n : Nat} {s t : State}
    (h : gatedRead ho chip addr n .deliver s = .next t) :
    comparesTo e s t (gatedRead ho chip addr n (.compare e) s) := by
  cases ho with
  | none => exact raise_comparesTo e h
  | some x =>
    rw [gatedRead_some] at h ⊢
    cases ha : s.trspPort with
    | nil =>
      rw [callChannel_silent _ _ ha] at h ⊢
      cases h
      exact .inl ⟨rfl, rfl⟩
    | cons a rest =>
      rw [callChannel_answered _ _ ha] at h ⊢
      exact takeAnswer_comparesTo (s := s.dropAnswer rest) e h

/-- VERIFY_BLOCK is READ_BLOCK of the operand's length, its result compared with the operand (R103). -/
theorem exec_verifyBlock_comparesTo {ho : Option Handle} {addr : Addr} {e : Bytes} {s t : State}
    (h : exec (.readBlock ho addr e.length) s = .next t) : comparesTo e s t (exec (.verifyBlock ho addr e) s) := by
  simp only [exec, execReadBlock, execVerifyBlock] at h ⊢
  split at h
  · rw [if_pos ‹_›]
    exact gatedRead_comparesTo e h
  · rw [if_neg ‹_›]
    exact raise_comparesTo e h

/-- Settles O30: the two operations wait in the same state, or end in states that differ in the result alone. -/
theorem verifyIsReadBlockThenCompare : Obligations.VerifyIsReadBlockThenCompare := by
  intro ho addr e s t h
  obtain ⟨hbusy, hv⟩ | ⟨u, xs, r, hreq, htrace, rfl, hv⟩ := exec_verifyBlock_comparesTo h
  · refine ⟨t, hv, rfl, rfl, rfl, rfl, fun hidle => ?_⟩
    rw [hbusy] at hidle
    cases hidle
  · refine ⟨_, hv, rfl, rfl, rfl, rfl, fun _ => ⟨rfl, xs, ?_, ?_⟩⟩ <;> simp [hreq, htrace]

/-- A SEND_COMMAND with its handle present and the channel silent waits for the answer to the write of its packet
(R80, R86). -/
theorem exec_sendCommand_silent (h : Handle) (c : Byte) (v : Option Value) {s : State} (hs : s.trspPort = []) :
    exec (.sendCommand (some h) c v) s =
      .next ((s.withPacket c v).await (writeCall h 0x37#7 0x51#32 (closedPacket c v))) := by
  rw [exec_sendCommand_eq_rawWrite]
  exact callChannel_silent _ _ ((State.withPacket_trspPort ..).trans hs)

/-- Settles O16: the brightness query is the SEND_COMMAND of 0x10 without a value. -/
theorem callSyntaxDefaults : Obligations.CallSyntaxDefaults := by
  refine ⟨fun _ => rfl, fun _ _ => rfl, fun h s hs => ⟨_, exec_sendCommand_silent h 0x10#8 none hs, ?_⟩⟩
  simp [writeCall, closedPacket]

end Sys2Proof.Machine
end

section
/-! The raw transport gate (R70 to R72), in the terms of the statements: absent handle, silent channel, answer. -/

namespace Sys2Proof.Machine

/-! ### The updates of the operations, by the names the statements give them -/

theorem State.complete_eq_finishedWith (s : State) (xs : List Exchange) (r : Res) :
    s.complete xs r = s.finishedWith xs r := rfl

theorem State.await_eq_waitingFor (s : State) (t : TReq) : s.await t = s.waitingFor t := rfl

theorem State.dropAnswer_eq_answersLeft (s : State) (rest : List TRsp) : s.dropAnswer rest = s.answersLeft rest := rfl

theorem State.setRbuf_eq_withRbuf (s : State) (data : Bytes) : s.setRbuf data = s.withRbuf data := rfl

theorem answerRes_report (a : TRsp) : answerRes .report a = writeResult a := rfl

theorem answerRes_deliver_ok {a : TRsp} (h : a.ok = true) :
    answerRes .deliver a = { ok := true, kind := .ok, code := none, data := a.data } := by
  simp [answerRes, successRes, h]

/-- A failing answer gives the same result whatever the operation would do with its data (R122). -/
theorem answerRes_fail (f : Finish) {a : TRsp} (h : a.ok = false) :
    answerRes f a = { ok := false, kind := .transportFailure, code := some a.code, data := [] } := by
  simp [answerRes, failureRes, h]

/-! ### RAW_WRITE (R71) -/

theorem exec_rawWrite_absent (chip : Chip) (addr : Addr) (p : Bytes) (s : State) :
    exec (.rawWrite none chip addr p) s = .next (s.finishedWith [] (earlyFailure .unavailableHandle)) := rfl

theorem exec_rawWrite_present (h : Handle) (chip : Chip) (addr : Addr) (p : Bytes) (s : State) :
    exec (.rawWrite (some h) chip addr p) s = callChannel (writeCall h chip addr p) .report s := rfl

theorem exec_rawWrite_silent (h : Handle) (chip : Chip) (addr : Addr) (p : Bytes) {s : State} (hs : s.trspPort = []) :
    exec (.rawWrite (some h) chip addr p) s = .next (s.waitingFor (writeCall h chip addr p)) := by
  rw [exec_rawWrite_present, callChannel_silent _ _ hs, State.await_eq_waitingFor]

theorem exec_rawWrite_answered (h : Handle) (chip : Chip) (addr : Addr) (p : Bytes) {s : State} {a : TRsp}
    {rest : List TRsp} (ha : s.trspPort = a :: rest) :
    exec (.rawWrite (some h) chip addr p) s =
      .next ((s.answersLeft rest).finishedWith [⟨writeCall h chip addr p, a⟩] (writeResult a)) := by
  rw [exec_rawWrite_present, callChannel_answered _ _ ha, takeAnswer_write rfl, answerRes_report,
    State.complete_eq_finishedWith, State.dropAnswer_eq_answersLeft]

/-- Settles O22: the gate's three cases, for every payload. -/
theorem rawWriteOutcome : Obligations.RawWriteOutcome :=
  ⟨fun _ => decodeRequest_rawWrite, fun chip addr p s => ⟨exec_rawWrite_absent chip addr p s, fun h =>
    ⟨exec_rawWrite_silent h chip addr p, fun _ _ => exec_rawWrite_answered h chip addr p⟩⟩⟩

/-! ### RAW_READ (R72) -/

theorem exec_rawRead_absent (chip : Chip) (addr : Addr) (n : Nat) (s : State) :
    exec (.rawRead none chip addr n) s = .next (s.finishedWith [] (earlyFailure .unavailableHandle)) := rfl

theorem exec_rawRead_present (h : Handle) (chip : Chip) (addr : Addr) (n : Nat) (s : State) :
    exec (.rawRead (some h) chip addr n) s = callChannel (readCall h chip addr n) .deliver s := rfl

theorem exec_rawRead_silent (h : Handle) (chip : Chip) (addr : Addr) (n : Nat) {s : State} (hs : s.trspPort = []) :
    exec (.rawRead (some h) chip addr n) s = .next (s.waitingFor (readCall h chip addr n)) := by
  rw [exec_rawRead_present, callChannel_silent _ _ hs, State.await_eq_waitingFor]

theorem exec_rawRead_failed (h : Handle) (chip : Chip) (addr : Addr) (n : Nat) {s : State} {a : TRsp}
    {rest : List TRsp} (ha : s.trspPort = a :: rest) (hok : a.ok = false) :
    exec (.rawRead (some h) chip addr n) s =
      .next ((s.answersLeft rest).finishedWith [⟨readCall h chip addr n, a⟩]
        { ok := false, kind := .transportFailure, code := some a.code, data := [] }) := by
  rw [exec_rawRead_present, callChannel_answered _ _ ha, takeAnswer_read_fail rfl _ hok, answerRes_fail _ hok,
    State.complete_eq_finishedWith, State.dropAnswer_eq_answersLeft]

theorem exec_rawRead_delivered (h : Handle) (chip : Chip) (addr : Addr) {n : Nat} {s : State} {a : TRsp}
    {rest : List TRsp} (ha : s.trspPort = a :: rest) (hok : a.ok = true) (hn : a.data.length = n) :
    exec (.rawRead (some h) chip addr n) s =
      .next (((s.answersLeft rest).withRbuf a.data).finishedWith [⟨readCall h chip addr n, a⟩]
        { ok := true, kind := .ok, code := none, data := a.data }) := by
  rw [exec_rawRead_present, callChannel_answered _ _ ha, takeAnswer_read_ok rfl _ hok hn, answerRes_deliver_ok hok,
    State.complete_eq_finishedWith, State.setRbuf_eq_withRbuf, State.dropAnswer_eq_answersLeft]

/-- Settles O23: the gate's four cases, for every length. -/
theorem rawReadOutcome : Obligations.RawReadOutcome :=
  ⟨fun _ => decodeRequest_rawRead, fun chip addr n s => ⟨exec_rawRead_absent chip addr n s, fun h =>
    ⟨exec_rawRead_silent h chip addr n, fun _ _ => exec_rawRead_failed h chip addr n,
      fun _ _ => exec_rawRead_delivered h chip addr⟩⟩⟩

end Sys2Proof.Machine
end

section
/-! Completion (R70 to R72, R133, U4) and the frames of the writes and of the reads (R75, R104). -/

namespace Sys2Proof.Machine

/-! ### The block operations on either side of their size check (R100) -/

theorem sizeOk_eq_false {n : Nat} (h : 4096 < n) : sizeOk n = false := by
  rw [← Bool.not_eq_true, sizeOk_iff]
  omega

theorem exec_writeBlock_oversize (ho : Option Handle) (addr : Addr) {p : Bytes} (s : State) (h : 4096 < p.length) :
    exec (.writeBlock ho addr p) s = raise .sizePrecondition s := by
  simp [exec, execWriteBlock, sizeOk_eq_false h]

theorem exec_readBlock_oversize (ho : Option Handle) (addr : Addr) {n : Nat} (s : State) (h : 4096 < n) :
    exec (.readBlock ho addr n) s = raise .sizePrecondition s := by
  simp [exec, execReadBlock, sizeOk_eq_false h]

theorem exec_verifyBlock_oversize (ho : Option Handle) (addr : Addr) {e : Bytes} (s : State) (h : 4096 < e.length) :
    exec (.verifyBlock ho addr e) s = raise .sizePrecondition s := by
  simp [exec, execVerifyBlock, sizeOk_eq_false h]

theorem exec_verifyBlock_within (ho : Option Handle) (addr : Addr) {e : Bytes} (s : State) (h : e.length ≤ 4096) :
    exec (.verifyBlock ho addr e) s = gatedRead ho 0x37#7 addr e.length (.compare e) s :=
  if_pos ((sizeOk_iff _).mpr h)

/-! ### Every instruction completes, or reads and meets the contract -/

/-- A write always completes: no answer to it breaks the contract (R20). -/
theorem exec_rawWrite_completes (ho : Option Handle) (chip : Chip) (addr : Addr) (p : Bytes) (s : State) :
    ∃ t, exec (.rawWrite ho chip addr p) s = .next t := by
  cases ho with
  | none => exact ⟨_, exec_rawWrite_absent ..⟩
  | some h =>
    cases ha : s.trspPort with
    | nil => exact ⟨_, exec_rawWrite_silent h chip addr p ha⟩
    | cons a rest => exact ⟨_, exec_rawWrite_answered h chip addr p ha⟩

theorem exec_sendCommand_completes (ho : Option Handle) (c : Byte) (v : Option Value) (s : State) :
    ∃ t, exec (.sendCommand ho c v) s = .next t := by
  rw [exec_sendCommand_eq_rawWrite]
  exact exec_rawWrite_completes ..

/-- The instruction completes whatever the channel answers, or it is the call of a read of `readLength` bytes. -/
def completesOrReads (i : Instr) (s : State) : Prop :=
  (readLength i = none ∧ ∃ t, exec i s = .next t) ∨
  ∃ q f, q.write = false ∧ readLength i = some q.len ∧ exec i s = callChannel q f s

theorem readLength_rawRead (ho : Option Handle) (chip : Chip) (addr : Addr) (n : Nat) :
    readLength (.rawRead ho chip addr n) = ho.map fun _ => n := by cases ho <;> rfl

theorem readLength_readResponse (ho : Option Handle) (n : Nat) :
    readLength (.readResponse ho n) = ho.map fun _ => n := by cases ho <;> rfl

theorem readLength_readBlock (ho : Option Handle) (addr : Addr) (n : Nat) :
    readLength (.readBlock ho addr n) = if n ≤ 4096 then ho.map fun _ => n else none := by
  cases ho <;> simp [readLength]

theorem readLength_verifyBlock (ho : Option Handle) (addr : Addr) (e : Bytes) :
    readLength (.verifyBlock ho addr e) = if e.length ≤ 4096 then ho.map fun _ => e.length else none := by
  cases ho <;> simp [readLength]

/-- An instruction that runs as the gate's read completes at once with the handle absent, and else reads. -/
theorem completesOrReads_of_gatedRead {i : Instr} {ho : Option Handle} {chip : Chip} {addr : Addr} {n : Nat} {f : Finish}
    {s : State} (hlen : readLength i = ho.map fun _ => n) (hrun : exec i s = gatedRead ho chip addr n f s) :
    completesOrReads i s := by
  cases ho with
  | none => exact .inl ⟨hlen, _, hrun⟩
  | some h => exact .inr ⟨readCall h chip addr n, f, rfl, hlen, hrun⟩

theorem exec_completesOrReads (i : Instr) (s : State) : completesOrReads i s := by
  cases i with
  | rawWrite ho chip addr p => exact .inl ⟨rfl, exec_rawWrite_completes ..⟩
  | rawRead ho chip addr n => exact completesOrReads_of_gatedRead (readLength_rawRead ..) rfl
  | sendCommand ho c v => exact .inl ⟨rfl, exec_sendCommand_completes ..⟩
  | readResponse ho n => exact completesOrReads_of_gatedRead (readLength_readResponse ..) rfl
  | writeBlock ho addr p =>
    obtain hp | hp := Nat.lt_or_ge 4096 p.length
    · exact .inl ⟨rfl, _, exec_writeBlock_oversize ho addr s hp⟩
    · rw [completesOrReads, exec_writeBlock_eq_rawWrite ho addr s hp]
      exact .inl ⟨rfl, exec_rawWrite_completes ..⟩
  | readBlock ho addr n =>
    obtain hn | hn := Nat.lt_or_ge 4096 n
    · exact .inl ⟨(readLength_readBlock ..).trans (if_neg (Nat.not_le.mpr hn)), _, exec_readBlock_oversize ho addr s hn⟩
    · exact completesOrReads_of_gatedRead ((readLength_readBlock ..).trans (if_pos hn))
        (exec_readBlock_eq_rawRead ho addr s hn)
  | verifyBlock ho addr e =>
    obtain he | he := Nat.lt_or_ge 4096 e.length
    · exact .inl ⟨(readLength_verifyBlock ..).trans (if_neg (Nat.not_le.mpr he)), _,
        exec_verifyBlock_oversize ho addr s he⟩
    · exact completesOrReads_of_gatedRead ((readLength_verifyBlock ..).trans (if_pos he))
        (exec_verifyBlock_within ho addr s he)
  | reserved7 => exact .inl ⟨rfl, _, rfl⟩
  | ddcPkt4 c k =>
    rw [completesOrReads, exec_ddcPkt4_eq_sendCommand]
    exact .inl ⟨rfl, exec_sendCommand_completes ..⟩
  | ddcPkt6 c h l k =>
    rw [completesOrReads, exec_ddcPkt6_eq_sendCommand]
    exact .inl ⟨rfl, exec_sendCommand_completes ..⟩

/-- A call completes unless its answer breaks the contract: a silent channel leaves the block waiting. -/
theorem callChannel_completes {q : TReq} (f : Finish) {s : State}
    (h : ∀ a rest, s.trspPort = a :: rest → contractKept q a) : ∃ t, callChannel q f s = .next t := by
  cases ha : s.trspPort with
  | nil => exact ⟨_, callChannel_silent q f ha⟩
  | cons a rest =>
    obtain ⟨u, -, hu⟩ := takeAnswer_of_contractKept (h a rest ha) f (s.dropAnswer rest)
    exact ⟨_, (callChannel_answered q f ha).trans hu⟩

/-- Settles O34: an instruction that reads is its channel call, whose answer keeps the contract or breaks it. -/
theorem everyInstructionCompletes : Obligations.EveryInstructionCompletes := by
  intro i s
  obtain ⟨hn, hdone⟩ | ⟨q, f, hw, hn, hcall⟩ := exec_completesOrReads i s
  · refine ⟨fun _ => hdone, ?_⟩
    rintro ⟨a, rest, n, -, hread, -⟩
    rw [hn] at hread
    cases hread
  · rw [hcall]
    refine ⟨fun h => callChannel_completes f fun a rest ha _ hok => h a rest _ ha hn hok, ?_⟩
    rintro ⟨a, rest, n, ha, hread, hok, hlen⟩
    cases hn.symm.trans hread
    rw [callChannel_answered q f ha, takeAnswer_read_breach hw f hok hlen]

/-! ### The frames -/

/-- RAW_WRITE, WRITE_BLOCK and RESERVED_7 end the operation, with what is left of the answers, or wait. -/
theorem exec_write_next_cases {ho : Option Handle} {chip : Chip} {addr : Addr} {p : Bytes} {s t : State} {i : Instr}
    (hi : i = .rawWrite ho chip addr p ∨ i = .writeBlock ho addr p ∨ i = .reserved7) (h : exec i s = .next t) :
    (∃ rest xs r, t = (s.dropAnswer rest).complete xs r) ∨ ∃ q, t = s.await q := by
  have early : ∀ k, raise k s = .next t → ∃ rest xs r, t = (s.dropAnswer rest).complete xs r := by
    intro k hk
    cases hk
    exact ⟨s.trspPort, _, _, rfl⟩
  obtain rfl | rfl | rfl := hi
  · exact gatedWrite_next_cases h
  · obtain hp | hp := Nat.lt_or_ge 4096 p.length
    · rw [exec_writeBlock_oversize ho addr s hp] at h
      exact .inl (early _ h)
    · rw [exec_writeBlock_eq_rawWrite ho addr s hp] at h
      exact gatedWrite_next_cases h
  · exact .inl (early _ h)

/-- Settles O35: neither way to go on writes a register but those of the operation's end. -/
theorem writeFrame : Obligations.WriteFrame := by
  intro ho chip addr p s t i hi h
  obtain ⟨rest, xs, r, rfl⟩ | ⟨q, rfl⟩ := exec_write_next_cases hi h
  · exact ⟨rfl, rfl, rfl, rfl, rfl, rfl, nofun, fun _ => ⟨rfl, rfl, xs, rfl⟩⟩
  · exact ⟨rfl, rfl, rfl, rfl, rfl, rfl, fun _ => ⟨rfl, rfl, rfl, rfl⟩, nofun⟩

theorem gatedRead_ran (ho : Option Handle) (chip : Chip) (addr : Addr) (n : Nat) (f : Finish) (s : State) :
    ranFrom s (gatedRead ho chip addr n f s) := by
  cases ho with
  | none => exact .inl ⟨_, rfl⟩
  | some h => exact .inr ⟨_, _, rfl⟩

/-- The reads write no register before their call. -/
theorem exec_read_ran {ho : Option Handle} {chip : Chip} {addr : Addr} {n : Nat} {e : Bytes} {i : Instr}
    (hi : i = .rawRead ho chip addr n ∨ i = .readResponse ho n ∨ i = .readBlock ho addr n ∨ i = .verifyBlock ho addr e)
    (s : State) : ranFrom s (exec i s) := by
  obtain rfl | rfl | rfl | rfl := hi
  · exact gatedRead_ran ..
  · exact gatedRead_ran ..
  · obtain hn | hn := Nat.lt_or_ge 4096 n
    · exact .inl ⟨_, exec_readBlock_oversize ho addr s hn⟩
    · rw [exec_readBlock_eq_rawRead ho addr s hn]
      exact gatedRead_ran ..
  · obtain he | he := Nat.lt_or_ge 4096 e.length
    · exact .inl ⟨_, exec_verifyBlock_oversize ho addr s he⟩
    · rw [exec_verifyBlock_within ho addr s he]
      exact gatedRead_ran ..

/-- Settles O36: a read ends before its call, waits, or ends by the oldest answer, which is in `RBUF` only if `ok = 1`. -/
theorem readFrame : Obligations.ReadFrame := by
  intro ho chip addr n e s t i hi h
  have hran := exec_read_ran hi s
  rw [h] at hran
  obtain ⟨k, ht⟩ | ⟨q, -, ht⟩ | ⟨q, a, rest, r, ha, ht | ⟨hok, ht⟩⟩ | ht := ranFrom_outcome hran <;> cases ht
  · exact ⟨rfl, rfl, rfl, rfl, rfl, .inl rfl, nofun, fun _ => ⟨rfl, rfl, _, rfl⟩⟩
  · exact ⟨rfl, rfl, rfl, rfl, rfl, .inl rfl, fun _ => ⟨rfl, rfl, rfl, rfl, rfl⟩, nofun⟩
  · exact ⟨rfl, rfl, rfl, rfl, rfl, .inl rfl, nofun, fun _ => ⟨rfl, rfl, _, rfl⟩⟩
  · exact ⟨rfl, rfl, rfl, rfl, rfl, .inr ⟨a, ha, hok, rfl⟩, nofun, fun _ => ⟨rfl, rfl, _, rfl⟩⟩

end Sys2Proof.Machine
end

section
/-! When the channel is called at all, and how often (R73, R76, R77, R107, R121). -/

namespace Sys2Proof.Machine

/-- A request on which a condition of R127 holds ends in one step, with no transport call. -/
theorem step_early_eq {s : State} {r : Req} {rest : List Req} {k : Kind} (h : s.phase = .idle)
    (hr : s.reqPort = r :: rest) (he : earlyResult r = some k) :
    step s = .next (((s.accept r rest).atGate r).complete [] (earlyFailure k)) :=
  (step_idle_runRequest h hr).trans (runRequest_early he _)

/-- With the handle absent a condition of R127 holds: its third, where the first two do not. -/
theorem earlyResult_of_handle_absent {r : Req} (h : r.handlePresent = false) :
    ∃ k, earlyResult r = some k ∧ (r.op ≠ 7#3 → oversize r = false → k = .unavailableHandle) := by
  by_cases h7 : r.op = 7#3
  · exact ⟨.illegalRequest, by simp [earlyResult, h7], fun hop => absurd h7 hop⟩
  · cases hbig : oversize r with
    | true => exact ⟨.sizePrecondition, by simp [earlyResult, h7, hbig], nofun⟩
    | false => exact ⟨.unavailableHandle, by simp [earlyResult, h7, hbig, h], fun _ _ => rfl⟩

/-- Settles O39: the request ends early, as any request does on which a condition of R127 holds. -/
theorem absentHandleNeverReachesTheChannel : Obligations.AbsentHandleNeverReachesTheChannel := by
  intro s r rest hp hr habsent
  obtain ⟨k, he, hk⟩ := earlyResult_of_handle_absent habsent
  refine ⟨_, k, step_early_eq hp hr he, rfl, rfl, ?_, ?_, hk⟩ <;> simp

/-- Settles O40: of the ways a step can go on, only the one that takes the oldest answer records an exchange. -/
theorem atMostOneTransportCall : Obligations.AtMostOneTransportCall := by
  intro s t h
  obtain ⟨-, -, rfl⟩ | ⟨u, -, -, -, -, htrsp, -, htrace, hend⟩ := step_next_cases h
  · exact .inl ⟨rfl, .inl rfl⟩
  rw [← htrsp, ← htrace]
  obtain ⟨k, rfl⟩ | ⟨q, -, rfl⟩ | ⟨q, a, rest, r, ha, rfl | ⟨-, rfl⟩⟩ := hend
  · exact .inl ⟨rfl, .inr ⟨_, _, rfl⟩⟩
  · exact .inl ⟨rfl, .inl rfl⟩
  · exact .inr ⟨a, _, q, r, ha, rfl⟩
  · exact .inr ⟨a, _, q, r, ha, rfl⟩

end Sys2Proof.Machine
end

section
/-! The packet framer (R81 to R84, R87): the body's value bytes, the frame, the checksum on any packet, and the packet. -/

namespace Sys2Proof.Machine

/-! ### The value's two bytes (R34, R81) -/

/-- R81: the high byte is `value >> 8`. -/
theorem highByte_toNat (v : Value) : (highByte v).toNat = (v >>> 8).toNat := by
  have hlt : v.toNat >>> 8 < 2 ^ 8 := by
    rw [Nat.shiftRight_eq_div_pow]
    omega
  rw [highByte, BitVec.extractLsb'_toNat, BitVec.toNat_ushiftRight, Nat.mod_eq_of_lt hlt]

/-- R81: the low byte is `value & 0xFF`. -/
theorem lowByte_toNat (v : Value) : (lowByte v).toNat = (v &&& 0xFF#16).toNat := by
  rw [lowByte, BitVec.extractLsb'_toNat, BitVec.toNat_and, Nat.shiftRight_zero]
  exact (Nat.and_two_pow_sub_one_eq_mod v.toNat 8).symm

theorem highByte_eq_shift (v : Value) : highByte v = (v >>> 8).setWidth 8 := by
  rw [← BitVec.ofNat_toNat, ← highByte_toNat, BitVec.ofNat_toNat, BitVec.setWidth_eq]

theorem lowByte_eq_mask (v : Value) : lowByte v = (v &&& 0xFF#16).setWidth 8 := by
  rw [← BitVec.ofNat_toNat, ← lowByte_toNat, BitVec.ofNat_toNat, BitVec.setWidth_eq]

theorem joinValue_highByte_lowByte (v : Value) : joinValue (highByte v) (lowByte v) = v := highByte_append_lowByte v

/-- R81: `high*256 + low` is the value. -/
theorem highByte_mul_add_lowByte (v : Value) : (highByte v).toNat * 256 + (lowByte v).toNat = v.toNat := by
  rw [← joinValue_toNat, joinValue_highByte_lowByte]

/-- Settles O17: the body's two forms, the two bytes as a shift and a mask, and the value they join to. -/
theorem bodyIsCommandAndBigEndianValue : Obligations.BodyIsCommandAndBigEndianValue :=
  fun _ v => ⟨rfl, rfl, highByte_eq_shift v, lowByte_eq_mask v, highByte_mul_add_lowByte v,
    joinValue_highByte_lowByte v⟩

/-! ### The checksum, on any packet (R83) -/

/-- The statements' fold is the model's accumulation. -/
theorem foldl_xor_eq_xorAll (x : Byte) (p : Bytes) : p.foldl (fun x y => x ^^^ y) x = xorAll x p := rfl

/-- XOR is commutative and associative, so the bytes may be accumulated in any order. -/
theorem xorAll_perm (x : Byte) {p q : Bytes} (h : p.Perm q) : xorAll x q = xorAll x p :=
  (h.foldl_eq' (fun a _ b _ z => by rw [BitVec.xor_assoc, BitVec.xor_comm a b, ← BitVec.xor_assoc]) x).symm

/-- R82, R83: the byte that stood in the checksum's position has no effect. -/
theorem checksum_dropLast_append (p : Bytes) (b : Byte) : checksum (p.dropLast ++ [b]) = checksum p :=
  checksum_append p.dropLast b

theorem checksum_checksum (p : Bytes) : checksum (checksum p) = checksum p :=
  checksum_dropLast_append p (checksumByte p)

/-- R84: the seed XOR all the bytes of a packet with its checksum is zero. -/
theorem xorAll_checksum (p : Bytes) : xorAll 0x3F#8 (checksum p) = 0x00#8 := by
  rw [checksum, xorAll_concat_eq_zero_iff, checksumByte, chkSeed_eq]

/-- Settles O19: the seed's value, and the four facts of the checksum on a packet with a last byte. -/
theorem checksumReplacesOnlyTheLastByte : Obligations.ChecksumReplacesOnlyTheLastByte := by
  refine ⟨rfl, by decide, fun rest b => ⟨?_, fun q hq => xorAll_perm _ hq, xorAll_checksum _, checksum_checksum _⟩⟩
  rw [checksum_append, chkSeed_eq, foldl_xor_eq_xorAll]

/-! ### The packet of a command (R82, R84, R87) -/

/-- Settles O20: the closed form, and the zero XOR of any packet with its checksum. -/
theorem packetHasItsClosedForm : Obligations.PacketHasItsClosedForm :=
  fun c v => ⟨packet_eq_closedPacket c v, xorAll_checksum _⟩

theorem buildBody_length (c : Byte) (v : Option Value) : (buildBody c v).length = 1 ∨ (buildBody c v).length = 3 := by
  cases v with
  | none => exact .inl rfl
  | some v => exact .inr rfl

theorem frame_length (body : Bytes) : (frame body).length = body.length + 3 := by
  simp [frame]

/-- R90 (d): below the flag bit, the or of the header byte is a sum. -/
theorem header_or_eq_add {n : Nat} (h : n = 1 ∨ n = 3) :
    0x80#8 ||| BitVec.ofNat 8 (n + 1) = BitVec.ofNat 8 (0x80 + n + 1) := by
  obtain rfl | rfl := h <;> decide

/-- Settles O18: the frame of a body of one or three bytes, whose placeholder the checksum replaces. -/
theorem frameIsHeaderLengthBodyPlaceholder : Obligations.FrameIsHeaderLengthBodyPlaceholder :=
  fun c v => ⟨_, rfl, buildBody_length c v, rfl, frame_length _, header_or_eq_add (buildBody_length c v),
    checksum_dropLast_append _⟩

/-- R82, R83: the packet is the header, the length byte and the body, with their checksum after them. -/
theorem packet_eq_append (c : Byte) (v : Option Value) :
    packet c v = (headerByte (buildBody c v).length :: BitVec.ofNat 8 (buildBody c v).length :: buildBody c v) ++
      [checksumByte (frame (buildBody c v))] := by
  rw [packet, checksum, frame, List.dropLast_concat]
  rfl

theorem packet_length (c : Byte) (v : Option Value) : (packet c v).length = (buildBody c v).length + 3 := by
  simp [packet_eq_append]

/-- R56, R87 (b). -/
theorem packet_head? (c : Byte) (v : Option Value) :
    (packet c v).head? = some (0x80#8 ||| BitVec.ofNat 8 ((buildBody c v).length + 1)) := by
  rw [packet_eq_append]
  rfl

/-- R87 (c): the stored checksum is the one derived again from the bytes before it. -/
theorem packet_getLast? (c : Byte) (v : Option Value) :
    (packet c v).getLast? = some (xorAll 0x3F#8 (packet c v).dropLast) := by
  rw [packet, checksum, List.getLast?_concat, List.dropLast_concat, checksumByte, chkSeed_eq]

/-- R87 (d): bytes 3 and 4 of a packet with a value. -/
theorem packet_value_bytes (c : Byte) (v : Value) :
    (packet c (some v)).getD 3 0#8 = highByte v ∧ (packet c (some v)).getD 4 0#8 = lowByte v :=
  ⟨rfl, rfl⟩

end Sys2Proof.Machine
end

section
/-! The codec's two operations (R80, R85 to R88), in the terms of the statements: absent handle, silent channel, answer. -/

namespace Sys2Proof.Machine

/-! ### SEND_COMMAND (R80, R86) -/

theorem exec_sendCommand_absent (c : Byte) (v : Option Value) (s : State) :
    exec (.sendCommand none c v) s = .next ((s.withPacket c v).finishedWith [] (earlyFailure .unavailableHandle)) := by
  rw [exec_sendCommand_eq_rawWrite, exec_rawWrite_absent]

theorem exec_sendCommand_answered (h : Handle) (c : Byte) (v : Option Value) {s : State} {a : TRsp} {rest : List TRsp}
    (ha : s.trspPort = a :: rest) :
    exec (.sendCommand (some h) c v) s =
      .next (((s.withPacket c v).answersLeft rest).finishedWith
        [⟨writeCall h 0x37#7 0x51#32 (closedPacket c v), a⟩] (writeResult a)) := by
  rw [exec_sendCommand_eq_rawWrite]
  exact exec_rawWrite_answered _ _ _ _ ((State.withPacket_trspPort ..).trans ha)

/-- Settles O24: the gate's three cases, from the state with the packet in `PKT`. -/
theorem sendCommandOutcome : Obligations.SendCommandOutcome :=
  ⟨fun _ => decodeRequest_sendCommand, fun c v s => ⟨exec_sendCommand_absent c v s, fun h =>
    ⟨exec_sendCommand_silent h c v, fun _ _ => exec_sendCommand_answered h c v⟩⟩⟩

/-- Settles O21: the packet's length, header, checksum and value bytes, and the operation with the handle absent. -/
theorem sendCommandPropertiesOfTheSource : Obligations.SendCommandPropertiesOfTheSource := by
  intro c v s
  refine ⟨packet_length c v, packet_head? c v, packet_getLast? c v, ?_, _, exec_sendCommand_absent c v s, rfl, ?_, ?_⟩
  · rintro w rfl
    obtain ⟨hhigh, hlow⟩ := packet_value_bytes c w
    rw [hhigh, hlow, ← highByte_toNat, ← lowByte_toNat]
    exact ⟨rfl, rfl, highByte_mul_add_lowByte w⟩
  · exact State.withPacket_trspPort ..
  · simp [State.finishedWith]

/-! ### READ_RESPONSE (R85, R88) -/

/-- Settles O25: READ_RESPONSE is the raw read at chip 0x37, offset 0, in each of the gate's four cases. -/
theorem readResponseOutcome : Obligations.ReadResponseOutcome := by
  refine ⟨fun _ => decodeRequest_readResponse, fun n s => ?_⟩
  simp only [exec_readResponse_eq_rawRead]
  exact rawReadOutcome.2 0x37#7 0#32 n s

end Sys2Proof.Machine
end

section
/-! The block operations (R100 to R103, R108), in the terms of the statements: size check, absent handle, silent channel,
answer. -/

namespace Sys2Proof.Machine

theorem raise_eq_finishedWith (k : Kind) (s : State) : raise k s = .next (s.finishedWith [] (earlyFailure k)) := rfl

/-! ### WRITE_BLOCK and READ_BLOCK (R101, R102) -/

/-- Settles O26: the size check fails, or the operation is the raw write at chip 0x37. -/
theorem writeBlockOutcome : Obligations.WriteBlockOutcome := by
  refine ⟨fun _ => decodeRequest_writeBlock, fun addr p s => ⟨fun hp ho => ?_, fun hp => ?_⟩⟩
  · rw [exec_writeBlock_oversize ho addr s hp, raise_eq_finishedWith]
  · simp only [exec_writeBlock_eq_rawWrite _ addr s hp]
    exact rawWriteOutcome.2 0x37#7 addr p s

/-- Settles O27: the size check fails, or the operation is the raw read at chip 0x37. -/
theorem readBlockOutcome : Obligations.ReadBlockOutcome := by
  refine ⟨fun _ => decodeRequest_readBlock, fun addr n s => ⟨fun hn ho => ?_, fun hn => ?_⟩⟩
  · rw [exec_readBlock_oversize ho addr s hn, raise_eq_finishedWith]
  · simp only [exec_readBlock_eq_rawRead _ addr s hn]
    exact rawReadOutcome.2 0x37#7 addr n s

/-! ### VERIFY_BLOCK (R103) -/

theorem answerRes_compare_equal {e : Bytes} {a : TRsp} (hok : a.ok = true) (hd : a.data = e) :
    answerRes (.compare e) a = { ok := true, kind := .ok, code := none, data := [] } := by
  simp [answerRes, successRes, hok, hd]

theorem answerRes_compare_different {e : Bytes} {a : TRsp} (hok : a.ok = true) (hd : a.data ≠ e) :
    answerRes (.compare e) a = { ok := false, kind := .verifyMismatch, code := none, data := [] } := by
  simp [answerRes, failureRes, hok, hd]

theorem exec_verifyBlock_present (h : Handle) (addr : Addr) {e : Bytes} (s : State) (he : e.length ≤ 4096) :
    exec (.verifyBlock (some h) addr e) s = callChannel (readCall h 0x37#7 addr e.length) (.compare e) s :=
  exec_verifyBlock_within (some h) addr s he

theorem exec_verifyBlock_failed (h : Handle) (addr : Addr) {e : Bytes} {s : State} {a : TRsp} {rest : List TRsp}
    (he : e.length ≤ 4096) (ha : s.trspPort = a :: rest) (hok : a.ok = false) :
    exec (.verifyBlock (some h) addr e) s =
      .next ((s.answersLeft rest).finishedWith [⟨readCall h 0x37#7 addr e.length, a⟩]
        { ok := false, kind := .transportFailure, code := some a.code, data := [] }) := by
  rw [exec_verifyBlock_present h addr s he, callChannel_answered _ _ ha, takeAnswer_read_fail rfl _ hok,
    answerRes_fail _ hok, State.complete_eq_finishedWith, State.dropAnswer_eq_answersLeft]

/-- A read of the expected length is compared, its bytes in `RBUF` whatever the comparison says (R16, R103). -/
theorem exec_verifyBlock_compared (h : Handle) (addr : Addr) {e : Bytes} {s : State} {a : TRsp} {rest : List TRsp}
    (he : e.length ≤ 4096) (ha : s.trspPort = a :: rest) (hok : a.ok = true) (hl : a.data.length = e.length) :
    exec (.verifyBlock (some h) addr e) s =
      .next (((s.answersLeft rest).withRbuf a.data).finishedWith [⟨readCall h 0x37#7 addr e.length, a⟩]
        (answerRes (.compare e) a)) := by
  rw [exec_verifyBlock_present h addr s he, callChannel_answered _ _ ha, takeAnswer_read_ok rfl _ hok hl,
    State.complete_eq_finishedWith, State.setRbuf_eq_withRbuf, State.dropAnswer_eq_answersLeft]

/-- Settles O28: the size check fails, or the gate's read, whose bytes are equal to the operand or differ from it. -/
theorem verifyBlockOutcome : Obligations.VerifyBlockOutcome := by
  refine ⟨fun _ => decodeRequest_verifyBlock, fun addr e s => ⟨fun he ho => ?_, fun he => ⟨?_, fun h =>
    ⟨fun hs => ?_, fun a rest ha hok => exec_verifyBlock_failed h addr he ha hok, fun a rest ha hok hd => ?_,
      fun a rest ha hok hl hd => ?_⟩⟩⟩⟩
  · rw [exec_verifyBlock_oversize ho addr s he, raise_eq_finishedWith]
  · rw [exec_verifyBlock_within none addr s he, gatedRead_none, raise_eq_finishedWith]
  · rw [exec_verifyBlock_present h addr s he, callChannel_silent _ _ hs, State.await_eq_waitingFor]
  · rw [exec_verifyBlock_compared h addr he ha hok (congrArg List.length hd), answerRes_compare_equal hok hd]
  · rw [exec_verifyBlock_compared h addr he ha hok hl, answerRes_compare_different hok hd]

end Sys2Proof.Machine
end

section
/-! What follows from the block operations' outcomes: the size failure before the channel (R100, R108), and VERIFY_BLOCK's
exact match and its repetition (R109). -/

namespace Sys2Proof.Machine

/-! ### The size failure (R100, R108) -/

/-- R126: a code tells its kind. -/
theorem kindOfCode_kindCode (k : Kind) : kindOfCode (kindCode k) = some k := by cases k <;> rfl

theorem kindCode_injective : Function.Injective kindCode := fun k l h =>
  Option.some.inj (by rw [← kindOfCode_kindCode k, h, kindOfCode_kindCode])

/-- R127: of a block operation above the limit, the size condition is the first that holds. -/
theorem earlyResult_of_oversize {r : Req}
    (h : r.op = 4#3 ∧ 4096 < r.payload.length ∨ r.op = 5#3 ∧ 4096 < r.len ∨ r.op = 6#3 ∧ 4096 < r.payload.length) :
    earlyResult r = some .sizePrecondition := by
  obtain ⟨hop, hn⟩ | ⟨hop, hn⟩ | ⟨hop, hn⟩ := h <;> simp [earlyResult, oversize, lengthTested, hop, hn]

/-- Settles O38: the request ends early, as any request does on which a condition of R127 holds. -/
theorem oversizeBlockFailsBeforeHandleAndChannel : Obligations.OversizeBlockFailsBeforeHandleAndChannel := by
  refine ⟨sizeOk_iff, fun k hk => kindCode_injective hk, fun s r rest hp hr hbig => ?_⟩
  refine ⟨_, step_early_eq hp hr (earlyResult_of_oversize hbig), rfl, rfl, ?_, rfl, ?_⟩ <;> simp

/-! ### The exact match (R109 (b)) -/

theorem answerRes_compare_ok_iff (e : Bytes) (a : TRsp) :
    (answerRes (.compare e) a).ok = true ↔ a.ok = true ∧ a.data = e := by
  cases hok : a.ok with
  | false => simp [answerRes_fail _ hok]
  | true =>
    by_cases hd : a.data = e
    · simp [answerRes_compare_equal hok hd, hd]
    · simp [answerRes_compare_different hok hd, hd]

/-- A transport call after which the block is IDLE took the oldest answer, and reports what the operation makes of it. -/
theorem callChannel_ended {q : TReq} {f : Finish} {s t : State} (h : callChannel q f s = .next t)
    (hidle : t.phase = .idle) : ∃ a, s.trspPort = a :: t.trspPort ∧ t.res = answerRes f a := by
  cases ha : s.trspPort with
  | nil =>
    rw [callChannel_silent _ _ ha] at h
    cases h
    cases hidle
  | cons a rest =>
    rw [callChannel_answered _ _ ha] at h
    obtain ⟨u, hu, hta⟩ := takeAnswer_of_contractKept (contractKept_of_takeAnswer h) f (s.dropAnswer rest)
    rw [hta] at h
    cases h
    obtain rfl | rfl := hu <;> exact ⟨a, rfl, rfl⟩

/-- VERIFY_BLOCK ends before its call, or by the comparison of the answer to it. -/
theorem exec_verifyBlock_ended {ho : Option Handle} {addr : Addr} {e : Bytes} {s t : State}
    (h : exec (.verifyBlock ho addr e) s = .next t) (hidle : t.phase = .idle) :
    ((4096 < e.length ∨ ho = none) ∧ t.res.ok = false) ∨
    ∃ x a, ho = some x ∧ e.length ≤ 4096 ∧ s.trspPort = a :: t.trspPort ∧ t.res = answerRes (.compare e) a := by
  obtain he | he := Nat.lt_or_ge 4096 e.length
  · rw [exec_verifyBlock_oversize ho addr s he] at h
    cases h
    exact .inl ⟨.inl he, rfl⟩
  cases ho with
  | none =>
    rw [exec_verifyBlock_within none addr s he] at h
    cases h
    exact .inl ⟨.inr rfl, rfl⟩
  | some x =>
    rw [exec_verifyBlock_present x addr s he] at h
    obtain ⟨a, ha, hres⟩ := callChannel_ended h hidle
    exact .inr ⟨x, a, rfl, he, ha, hres⟩

/-- Settles O43: an end before the call is no match, and a comparison is one exactly on equal bytes. -/
theorem verifyMatchesExactlyOnEqualBytes : Obligations.VerifyMatchesExactlyOnEqualBytes := by
  intro s t ho addr e h hidle
  obtain ⟨hearly, hres⟩ | ⟨x, a, rfl, he, ha, hres⟩ := exec_verifyBlock_ended h hidle
  · rw [hres]
    refine ⟨nofun, ?_⟩
    rintro ⟨x, -, rfl, he, -⟩
    obtain hbig | hnone := hearly
    · omega
    · cases hnone
  · rw [hres, answerRes_compare_ok_iff]
    refine ⟨fun ⟨hok, hd⟩ => ⟨x, a, rfl, he, ha, hok, hd⟩, ?_⟩
    rintro ⟨-, b, -, -, hb, hok, hd⟩
    cases ha.symm.trans hb
    exact ⟨hok, hd⟩

/-! ### The repetition (R109 (c)) -/

/-- With an answer there, the step that accepts a request also ends it, and takes that answer or none. -/
theorem step_answered_ends {s t : State} {r : Req} {rest : List Req} {a : TRsp} {as : List TRsp} (hp : s.phase = .idle)
    (hr : s.reqPort = r :: rest) (ha : s.trspPort = a :: as) (h : step s = .next t) :
    t.phase = .idle ∧ t.reqPort = rest ∧ (t.trspPort = a :: as ∨ t.trspPort = as) := by
  obtain ⟨-, hnil, -⟩ | ⟨u, -, -, -, ⟨-, hacc⟩ | ⟨hbusy, -⟩, htrsp, -, -, hend⟩ := step_next_cases h
  · cases hr.symm.trans hnil
  · cases hr.symm.trans hacc
    rw [ha] at htrsp
    obtain ⟨k, rfl⟩ | ⟨q, hq, -⟩ | ⟨q, b, bs, res, hb, ht⟩ := hend
    · exact ⟨rfl, rfl, .inl htrsp⟩
    · cases htrsp.symm.trans hq
    · cases htrsp.symm.trans hb
      obtain rfl | ⟨-, rfl⟩ := ht <;> exact ⟨rfl, rfl, .inr rfl⟩
  · cases hp.symm.trans hbusy

/-- Settles O44: the second step meets the same request and answer, on which alone its record depends (R10). -/
theorem verifyTwiceGivesTheSameRecord : Obligations.VerifyTwiceGivesTheSameRecord := by
  intro s t r rest a as hp _ hr ha h
  obtain ⟨htp, htr, hta⟩ := step_answered_ends hp hr ha h
  obtain ⟨bs, hbs⟩ : ∃ bs, t.trspPort = a :: bs := hta.elim (fun hl => ⟨_, hl⟩) (fun hl => ⟨_, hl⟩)
  obtain ⟨e, hs, -⟩ | ⟨t', u, rec, hs, hu, htrace, hutrace, -⟩ :=
    operationDependsOnRequestAndAnswerAlone s t r (r :: rest) rest a (a :: as) bs hp htp hr htr ha hbs
  · cases h.symm.trans hs
  · cases h.symm.trans hs
    obtain ⟨-, hureq, -⟩ := step_answered_ends htp htr hbs hu
    exact ⟨u, rec, htrace, hu, by rw [hutrace, htrace, List.append_assoc]; rfl, hureq⟩

end Sys2Proof.Machine
end

section
/-! The failure matrix (R125, R127, R133) and the table of result kinds (R126), over the step that accepts a request. -/

namespace Sys2Proof.Machine

/-! ### The reserved selector (R125) -/

/-- Settles O31: RESERVED_7 raises, and looks at no operand. -/
theorem reservedSelectorIsIllegalRequest : Obligations.ReservedSelectorIsIllegalRequest :=
  ⟨fun _ => decodeRequest_reserved7, raise_eq_finishedWith .illegalRequest⟩

/-! ### A request's one step from IDLE (R127, R133) -/

@[simp] theorem State.atGate_resPort (s : State) (r : Req) : (s.atGate r).resPort = s.resPort := by
  unfold State.atGate; split <;> simp

/-- A request that reaches a silent channel emits its call and waits. -/
theorem step_silent {s : State} {r : Req} {rest : List Req} (h : s.phase = .idle) (hr : s.reqPort = r :: rest)
    (he : earlyResult r = none) (hq : s.trspPort = []) :
    step s = .next (((s.accept r rest).atGate r).await (requestCall r)) := by
  have hquiet : ((s.accept r rest).atGate r).trspPort = [] := (State.atGate_trspPort ..).trans hq
  rw [step_idle_runRequest h hr, runRequest_call he, callChannel_silent _ _ hquiet]

/-- A step that adds a record to the trace leaves the block IDLE and has taken the answers recorded in it, no others. -/
theorem step_recorded {s t : State} {rec : OpRecord} (h : step s = .next t) (htrace : t.trace = s.trace ++ [rec]) :
    t.phase = .idle ∧ s.trspPort = rec.exchanges.map (fun x => x.answer) ++ t.trspPort := by
  obtain ⟨hsame, -⟩ | ⟨rec', htrace', -, -, hidle, -, htrsp⟩ := step_ports h
  · simp [hsame] at htrace
  · obtain rfl : rec = rec' := by simpa [htrace] using htrace'
    exact ⟨hidle, htrsp⟩

/-- Settles O41: the request ends early, waits for the answer to its call, or ends with that answer. -/
theorem everyRequestFollowsTheFailureMatrix : Obligations.EveryRequestFollowsTheFailureMatrix := by
  intro s r rest hp hr
  refine ⟨fun k he => ?_, fun he hq => ?_, fun a as he ha hc => ?_⟩
  · obtain ⟨t, h, htrace, hres⟩ := step_early hp hr he
    obtain ⟨hidle, htrsp⟩ := step_recorded h htrace
    exact ⟨t, h, hidle, htrsp.symm, hres, htrace⟩
  · refine ⟨_, step_silent hp hr he hq, rfl, ?_, rfl, ?_, ?_⟩ <;> simp
  · obtain ⟨t, h, htrace, hres⟩ := step_answered_kept hp hr ha he hc
    obtain ⟨hidle, htrsp⟩ := step_recorded h htrace
    obtain rfl : as = t.trspPort := by simpa [ha] using htrsp
    exact ⟨t, h, hidle, rfl, hres, htrace⟩

/-! ### The kinds, and who raises which (R126) -/

/-- A request that ends in the step that accepts it leaves its own record, one the rules allow, whatever else the state
holds. -/
theorem step_idle_conforms {s t : State} {r : Req} {rest : List Req} {rec : OpRecord} (hp : s.phase = .idle)
    (hr : s.reqPort = r :: rest) (h : step s = .next t) (htrace : t.trace = s.trace ++ [rec]) :
    rec.request = r ∧ rec.conforms := by
  cases he : earlyResult r with
  | some k =>
    obtain ⟨u, hu, hutrace, -⟩ := step_early hp hr he
    cases h.symm.trans hu
    obtain rfl : _ = rec := by simpa [hutrace] using htrace
    exact ⟨rfl, .inl ⟨k, he, rfl, rfl⟩⟩
  | none =>
    cases ha : s.trspPort with
    | nil =>
      rw [step_silent hp hr he ha] at h
      cases h
      simp at htrace
    | cons a as =>
      have hc : contractKept (requestCall r) a := contractKept_of_takeAnswer ((step_answered hp hr ha he).symm.trans h)
      obtain ⟨u, hu, hutrace, -⟩ := step_answered_kept hp hr ha he hc
      cases h.symm.trans hu
      obtain rfl : _ = rec := by simpa [hutrace] using htrace
      exact ⟨rfl, .inr ⟨he, a, hc, rfl, rfl⟩⟩

/-- R100: only the three block operations have a length to test. -/
theorem op_of_oversize {r : Req} (h : oversize r = true) : r.op = 4#3 ∨ r.op = 5#3 ∨ r.op = 6#3 := by
  by_contra hop
  push Not at hop
  obtain ⟨h4, h5, h6⟩ := hop
  simp [oversize, lengthTested, h4, h5, h6] at h

/-- The conditions of R127, and the requests each can hold of. -/
theorem earlyResult_some_cases {r : Req} {k : Kind} (h : earlyResult r = some k) :
    (k = .illegalRequest ∧ r.op = 7#3) ∨
    (k = .sizePrecondition ∧ r.op ≠ 7#3 ∧ (r.op = 4#3 ∨ r.op = 5#3 ∨ r.op = 6#3)) ∨
    (k = .unavailableHandle ∧ r.op ≠ 7#3) := by
  unfold earlyResult at h
  split_ifs at h with h7 hbig habsent <;> cases h
  · exact .inl ⟨rfl, h7⟩
  · exact .inr (.inl ⟨rfl, h7, op_of_oversize hbig⟩)
  · exact .inr (.inr ⟨rfl, h7⟩)

/-- The reserved selector never reaches the channel (R125). -/
theorem op_ne_of_earlyResult_none {r : Req} (h : earlyResult r = none) : r.op ≠ 7#3 := by
  intro hop
  simp [earlyResult, hop] at h

/-- The last two columns of R133: the answer is reported as a failure, as a success, or as a mismatch of VERIFY_BLOCK. -/
theorem matrixResult_cases (r : Req) (a : TRsp) :
    ((matrixResult r a).kind = .transportFailure ∧ (matrixResult r a).ok = false) ∨
    ((matrixResult r a).kind = .ok ∧ (matrixResult r a).ok = true) ∨
    ((matrixResult r a).kind = .verifyMismatch ∧ (matrixResult r a).ok = false ∧ r.op = 6#3) := by
  unfold matrixResult
  split_ifs with hfail hread hdiff
  · exact .inl ⟨rfl, rfl⟩
  · exact .inr (.inl ⟨rfl, rfl⟩)
  · exact .inr (.inr ⟨rfl, rfl, hdiff.1⟩)
  · exact .inr (.inl ⟨rfl, rfl⟩)

/-- Settles O42: the record is one the rules allow, and each kind stands in one place of the failure matrix. -/
theorem resultKindsAreThoseOfTheTable : Obligations.ResultKindsAreThoseOfTheTable := by
  refine ⟨⟨rfl, rfl, rfl, rfl, rfl, rfl⟩, fun s t r rest rec hp hr h htrace => ?_⟩
  obtain ⟨rfl, ⟨k, he, hx, hres⟩ | ⟨he, a, -, hx, hres⟩⟩ := step_idle_conforms hp hr h htrace
  · obtain ⟨rfl, h7⟩ | ⟨rfl, h7, hblock⟩ | ⟨rfl, h7⟩ := earlyResult_some_cases he
    · simp [hx, hres, earlyFailure, h7]
    · simp [hx, hres, earlyFailure, h7, hblock]
    · simp [hx, hres, earlyFailure, h7]
  · have h7 : rec.request.op ≠ 7#3 := op_ne_of_earlyResult_none he
    obtain ⟨hk, hok⟩ | ⟨hk, hok⟩ | ⟨hk, hok, h6⟩ := matrixResult_cases rec.request a
    · simp [hx, hres, hk, hok, h7]
    · simp [hx, hres, hk, hok, h7]
    · simp [hx, hres, hk, hok, h6]

end Sys2Proof.Machine
end

section
/-! Reset (R140, R141), and the one stuck state (R148). -/

namespace Sys2Proof.Machine

/-! ### Reset -/

/-- R141: an operation in flight stands in reset's way. -/
theorem applyReset_busy {s : State} (h : s.phase = .busy) : applyReset s = .refused .resetWhileBusy := by
  simp [applyReset, h]

/-- R140: the state after reset, with what the host has presented and what the channel will answer (log entry 16). -/
theorem applyReset_idle {s : State} (h : s.phase = .idle) :
    applyReset s = .next { State.reset with reqPort := s.reqPort, trspPort := s.trspPort } := by
  simp [applyReset, h]

/-- Settles O9: the two phases' resets, the fields read off the state after reset. -/
theorem resetRefusedWhileBusy : Obligations.ResetRefusedWhileBusy :=
  fun _ => ⟨applyReset_busy, fun hp => ⟨_, applyReset_idle hp, rfl, rfl, rfl, rfl, rfl⟩⟩

/-! ### The stuck state -/

/-- An answer that is there ends the operation or breaks the contract (R72, U4). -/
theorem takeAnswer_never_faults (t : TReq) (f : Finish) (a : TRsp) (s : State) (e : Fault) :
    takeAnswer t f a s ≠ .fault e := by
  intro he
  obtain ⟨h, -⟩ | ⟨h, -⟩ | ⟨h, -⟩ := takeAnswer_cases t f a s <;> cases he.symm.trans h

/-- With a call outstanding, only the missing answer faults (R148). -/
theorem resume_fault_iff (t : TReq) (s : State) : resume t s = .fault .noTransportAnswer ↔ s.trspPort = [] := by
  refine ⟨fun he => ?_, resume_silent t⟩
  cases hq : s.trspPort with
  | nil => rfl
  | cons a rest => exact (takeAnswer_never_faults _ _ _ _ _ ((resume_answered t hq).symm.trans he)).elim

/-- IDLE, a step idles or runs the oldest request, and no instruction faults. -/
theorem step_idle_never_faults {s : State} (h : s.phase = .idle) (e : Fault) : step s ≠ .fault e := by
  cases hr : s.reqPort with
  | nil => rw [step_idle h hr]; nofun
  | cons r rest => rw [step_request h hr]; exact exec_never_faults _ _ e

/-- BUSY with no call outstanding, a step runs the framed packet or refuses what is none (log entry 1). -/
theorem step_packet_never_faults {s : State} (h : s.phase = .busy) (ht : s.treq = none) (e : Fault) :
    step s ≠ .fault e := by
  rw [step_packet h ht]
  split
  · exact exec_never_faults _ _ e
  · nofun

/-- Settles O5: only a step that resumes an outstanding call can fault, and it does so while the channel is silent. -/
theorem stuckExactlyWhileTheChannelIsSilent : Obligations.StuckExactlyWhileTheChannelIsSilent := by
  intro s
  cases hp : s.phase with
  | idle => simp [step_idle_never_faults hp]
  | busy =>
    cases ht : s.treq with
    | none => simp [step_packet_never_faults hp ht]
    | some t => simp [step_resume hp ht, resume_fault_iff]

end Sys2Proof.Machine
end

section
/-! Where a step finds its instruction: the idle step, the framed packet, and the opcode table's words placed where the
next step fetches (R12, R13; log entries 1, 7, 10, 11). -/

namespace Sys2Proof.Machine

/-- Settles O3: the step runs what the bytes of `PKT` decode to. -/
theorem stepRunsTheFramedPacket : Obligations.StepRunsTheFramedPacket := by
  intro s i hp ht hd
  have hpkt : decodePacket s.pktBytes = .ok i := hd
  rw [step_packet hp ht, hpkt]

/-- Settles O4: with no request presented the step idles. -/
theorem idleStepWithoutRequestChangesNothing : Obligations.IdleStepWithoutRequestChangesNothing :=
  fun _ hp hr => step_idle hp hr

/-! ### The opcode table's words -/

theorem decodeTableWord_eq_some_iff {nbits w : Nat} {i : Instr} :
    decodeTableWord nbits w = some i ↔ ∃ f, fetchedOfTableWord nbits w = some f ∧ decode f = .ok i := by
  cases hf : fetchedOfTableWord nbits w with
  | none => simp [decodeTableWord, hf]
  | some f => cases hd : decode f <;> simp [decodeTableWord, hf, hd]

@[simp] theorem packetBytesOf_length (n w : Nat) : (packetBytesOf n w).length = n := by
  induction n with
  | zero => rfl
  | succ m ih => simp [packetBytesOf, ih]

/-- A word of up to eight bits is a request's selector, and is placed as a request. -/
theorem tableWord_request {nbits : Nat} (h : nbits ≤ 8) (w : Nat) (s : State) :
    fetchedOfTableWord nbits w = some (.request (Req.zero (BitVec.ofNat 3 w))) ∧
      s.withFetchWord nbits w = s.placeRequest (Req.zero (BitVec.ofNat 3 w)) := by
  have h32 : nbits ≠ 32 := by omega
  have h48 : nbits ≠ 48 := by omega
  simp [fetchedOfTableWord, State.withFetchWord, State.placeTableWord, h, h32, h48]

/-- A wider word that stands for anything is a packet, and is placed as one. -/
theorem tableWord_packet {nbits w : Nat} {f : Fetched} (h : 8 < nbits) (hf : fetchedOfTableWord nbits w = some f)
    (s : State) :
    ∃ p n, f = .packet p ∧ p.length = n.toNat ∧ s.withFetchWord nbits w = s.placePacket p n := by
  unfold fetchedOfTableWord at hf
  split_ifs at hf with h8 h32 h48 <;> cases hf
  · omega
  · exact ⟨_, .four, rfl, packetBytesOf_length 4 w, if_pos h32⟩
  · exact ⟨_, .six, rfl, packetBytesOf_length 6 w, (if_neg h32).trans (if_pos h48)⟩

/-- A packet placed in `PKT` is read back from it (R14). -/
theorem placePacket_pktBytes {p : Bytes} {n : PktLen} (h : p.length = n.toNat) (s : State) :
    (s.placePacket p n).pktBytes = p := by
  cases n with
  | four => match p, h with | [_, _, _, _], _ => rfl
  | six => match p, h with | [_, _, _, _, _, _], _ => rfl

theorem step_placeRequest (r : Req) (s : State) :
    step (s.placeRequest r) = exec (decodeRequest r) { s with phase := .busy, treq := none, req := r } :=
  step_request rfl rfl

theorem step_placePacket {p : Bytes} {n : PktLen} {i : Instr} (h : p.length = n.toNat) (hd : decodePacket p = .ok i)
    (s : State) : step (s.placePacket p n) = exec i (s.placePacket p n) := by
  refine stepRunsTheFramedPacket _ i rfl rfl ?_
  rwa [← State.pktBytes, placePacket_pktBytes h]

/-- Settles O10: the word is decoded as what it is placed as, a request or a packet. -/
theorem placedTableWordRuns : Obligations.PlacedTableWordRuns := by
  intro s nbits w i hi
  obtain ⟨f, hf, hd⟩ := decodeTableWord_eq_some_iff.mp hi
  constructor
  · intro h8
    obtain ⟨hreq, hplaced⟩ := tableWord_request h8 w s
    cases hf.symm.trans hreq
    cases hd
    rw [hplaced, step_placeRequest]
  · intro h8
    obtain ⟨p, n, rfl, hlen, hplaced⟩ := tableWord_packet h8 hf s
    rw [hplaced, step_placePacket hlen hd]

/-- Settles O15: the eight words, evaluated. -/
theorem wordsOfTheSpecDecode : Obligations.WordsOfTheSpecDecode := by
  unfold Obligations.WordsOfTheSpecDecode
  decide

end Sys2Proof.Machine
end

section
/-! The packet rows of the opcode table (R60, R61), as what is left of their SEND_COMMAND (log entry 1). -/

namespace Sys2Proof.Machine

/-- Settles O33: the two rows' equations; the two bytes of a value are the value. -/
theorem packetRowIsTheRestOfItsSendCommand : Obligations.PacketRowIsTheRestOfItsSendCommand := by
  intro c k v s
  refine ⟨exec_ddcPkt4_eq_sendCommand c k s, ?_⟩
  rw [exec_ddcPkt6_eq_sendCommand, highByte_append_lowByte]

theorem serviceHandle_absent {r : Req} (h : r.handlePresent = false) : r.serviceHandle = none := by
  simp [Req.serviceHandle, h]

theorem serviceHandle_present {r : Req} (h : r.handlePresent = true) : r.serviceHandle = some r.handle := by
  simp [Req.serviceHandle, h]

/-- Settles O32: each row is a SEND_COMMAND for the latched handle, in each of the gate's three cases. -/
theorem packetRowsTransmitTheirPacket : Obligations.PacketRowsTransmitTheirPacket := by
  intro c k h l s
  rw [exec_ddcPkt4_eq_sendCommand, exec_ddcPkt6_eq_sendCommand]
  refine ⟨fun hp => ?_, fun hp hq => ?_, fun a rest hp ha => ?_⟩
  · rw [serviceHandle_absent hp]
    exact ⟨exec_sendCommand_absent c _ s, exec_sendCommand_absent c _ s⟩
  · rw [serviceHandle_present hp]
    exact ⟨exec_sendCommand_silent _ c _ hq, exec_sendCommand_silent _ c _ hq⟩
  · rw [serviceHandle_present hp]
    exact ⟨exec_sendCommand_answered _ c _ ha, exec_sendCommand_answered _ c _ ha⟩

end Sys2Proof.Machine
end
